-- ==== Sys2Proof/Word.lean ====
section
/-! DEFINITION. The 64-bit word, the 128-bit value and what integer a value stands for (00_scope.md R7, R8). -/

namespace Sys2Proof

/-- A 64-bit machine word; bit 0 is the least significant (R7, R8). -/
abbrev Word := BitVec 64

/-- A 128-bit value `U(high, low)`: the pair of its two words (R7, R8). Every pair is legal (R9). -/
structure U128 where
  high : Word
  low : Word
  deriving DecidableEq, Repr, Inhabited

/-- `nat(U(h, l)) = nat(h) * 2^64 + nat(l)` (R7, and the table of 00_scope.md section 5.1). -/
def U128.nat (v : U128) : Nat := v.high.toNat * 2 ^ 64 + v.low.toNat

/-- `MAX64 = 2^64 - 1` (00_scope.md section 5.1). -/
def max64 : Word := 0xFFFFFFFFFFFFFFFF#64

/-- `MAX128 = U(MAX64, MAX64) = 2^128 - 1` (00_scope.md section 5.1). -/
def max128 : U128 := ⟨max64, max64⟩

end Sys2Proof
end

