-- ==== Sys2Proof/Machine/Cells.lean ====
section
/-! DEFINITION. The 64-bit cells ADD64 and SUB64 (40_word_cells.md). `add64` and `sub64` are the arithmetic
definitions, the only normative ones (R40, R44); the gate-level forms of R41, R42, R45, R46 and the two-step forms
of R43 and R47 stand beside them as structures an implementation may have. -/

namespace Sys2Proof.Machine

/-- The outputs of a cell: `sum`, `cout` of ADD64, or `diff`, `bout` of SUB64. -/
structure CellOut where
  word : Word
  carry : Bool
  deriving DecidableEq, Repr

/-- `ADD64(a, b, cin)` (R40). -/
def add64 (a b : Word) (cin : Bool) : CellOut :=
  let t := a.toNat + b.toNat + cin.toNat
  { word := BitVec.ofNat 64 (t % 2 ^ 64), carry := decide (t / 2 ^ 64 = 1) }

/-- `SUB64(a, b, bin)`: a true borrow, 1 when one was needed (R44). -/
def sub64 (a b : Word) (bin : Bool) : CellOut :=
  let t : Int := (a.toNat : Int) - (b.toNat : Int) - (bin.toNat : Int)
  let bout := decide (t < 0)
  { word := BitVec.ofNat 64 (t + (bout.toNat : Int) * 2 ^ 64).toNat, carry := bout }

/-- The carry `c[i]` of the ripple chain of ADD64 (R41). -/
def rippleCarry (a b : Word) (cin : Bool) : Nat → Bool
  | 0 => cin
  | i + 1 =>
    (a.getLsbD i && b.getLsbD i) || (rippleCarry a b cin i && (a.getLsbD i ^^ b.getLsbD i))

/-- ADD64 as a ripple chain (R41). -/
def rippleAdd (a b : Word) (cin : Bool) : CellOut :=
  { word := BitVec.ofFnLE fun i : Fin 64 => (a.getLsbD i ^^ b.getLsbD i) ^^ rippleCarry a b cin i
    carry := rippleCarry a b cin 64 }

/-- `g[i]`, generate (R42). -/
def generateBit (a b : Word) (i : Nat) : Bool := a.getLsbD i && b.getLsbD i

/-- `p[i]`, propagate (R42). -/
def propagateBit (a b : Word) (i : Nat) : Bool := a.getLsbD i ^^ b.getLsbD i

/-- The group signal `P` of the `n` bits from bit `j` up: `p[k] and ... and p[j]` (R42). -/
def groupPropagate (a b : Word) (j n : Nat) : Bool := (List.range' j n).all (propagateBit a b)

/-- The group signal `G` of the `n` bits from bit `j` up: some bit generates and every bit of the group
above it propagates (R42). -/
def groupGenerate (a b : Word) (j n : Nat) : Bool :=
  (List.range' j n).any fun m => generateBit a b m && groupPropagate a b (m + 1) (j + n - (m + 1))

/-- The carry `c[i]` in its expanded form, each term a product of generate and propagate signals (R42). -/
def lookaheadCarry (a b : Word) (cin : Bool) (i : Nat) : Bool :=
  groupGenerate a b 0 i || (groupPropagate a b 0 i && cin)

/-- ADD64 in carry-lookahead form (R42). -/
def lookaheadAdd (a b : Word) (cin : Bool) : CellOut :=
  { word := BitVec.ofFnLE fun i : Fin 64 => propagateBit a b i ^^ lookaheadCarry a b cin i
    carry := lookaheadCarry a b cin 64 }

/-- The borrow `w[i]` of the ripple chain of SUB64 (R45). -/
def rippleBorrow (a b : Word) (bin : Bool) : Nat → Bool
  | 0 => bin
  | i + 1 =>
    (!a.getLsbD i && b.getLsbD i) || (!(a.getLsbD i ^^ b.getLsbD i) && rippleBorrow a b bin i)

/-- SUB64 as a ripple borrow chain (R45). -/
def rippleSub (a b : Word) (bin : Bool) : CellOut :=
  { word := BitVec.ofFnLE fun i : Fin 64 => (a.getLsbD i ^^ b.getLsbD i) ^^ rippleBorrow a b bin i
    carry := rippleBorrow a b bin 64 }

/-- SUB64 built from an adder by complementing the subtrahend, the borrow in and the carry out (R46). -/
def complementSub (a b : Word) (bin : Bool) : CellOut :=
  let r := add64 a (~~~b) (!bin)
  { word := r.word, carry := !r.carry }

/-- The first step of the two-step addition: `(s1, c1) = a + b` (R43). -/
def addStepOne (a b : Word) : CellOut :=
  { word := a + b, carry := decide (2 ^ 64 ≤ a.toNat + b.toNat) }

/-- The second step: `(s2, c2) = s1 + cin` (R43). -/
def addStepTwo (a b : Word) (cin : Bool) : CellOut :=
  let s1 := (addStepOne a b).word
  { word := s1 + BitVec.ofNat 64 cin.toNat, carry := decide (2 ^ 64 ≤ s1.toNat + cin.toNat) }

/-- ADD64 in two steps: `sum = s2`, `cout = c1 or c2` (R43). -/
def twoStepAdd (a b : Word) (cin : Bool) : CellOut :=
  { word := (addStepTwo a b cin).word, carry := (addStepOne a b).carry || (addStepTwo a b cin).carry }

/-- The first step of the two-step subtraction: `(d1, b1) = a - b` (R47). -/
def subStepOne (a b : Word) : CellOut :=
  { word := a - b, carry := decide (a.toNat < b.toNat) }

/-- The second step: `(d2, b2) = d1 - bin` (R47). -/
def subStepTwo (a b : Word) (bin : Bool) : CellOut :=
  let d1 := (subStepOne a b).word
  { word := d1 - BitVec.ofNat 64 bin.toNat, carry := decide (d1.toNat < bin.toNat) }

/-- SUB64 in two steps: `diff = d2`, `bout = b1 or b2` (R47). -/
def twoStepSub (a b : Word) (bin : Bool) : CellOut :=
  { word := (subStepTwo a b bin).word, carry := (subStepOne a b).carry || (subStepTwo a b bin).carry }

/-- `ADDER_IMPL`: some implementation of the two cells (92_eei_decisions.md D9; DEDUCED, log entry 9). -/
structure AdderImpl where
  add : Word → Word → Bool → CellOut
  sub : Word → Word → Bool → CellOut

/-- The obligation on an implementation: it equals R40 and R44 on every input (D9). -/
def AdderImpl.meets (m : AdderImpl) : Prop :=
  (∀ a b c, m.add a b c = add64 a b c) ∧ (∀ a b c, m.sub a b c = sub64 a b c)

/-- The trusted cells: arithmetic (R40, R44). -/
def arithmeticCells : AdderImpl := { add := add64, sub := sub64 }

/-- Ripple chains for both cells (R41, R45). -/
def rippleCells : AdderImpl := { add := rippleAdd, sub := rippleSub }

/-- A lookahead adder, and the subtractor made from it by complement (R42, R46). -/
def lookaheadCells : AdderImpl :=
  { add := lookaheadAdd
    sub := fun a b bin =>
      { word := (lookaheadAdd a (~~~b) (!bin)).word, carry := !(lookaheadAdd a (~~~b) (!bin)).carry } }

end Sys2Proof.Machine
end

