-- ==== Sys2Proof/Machine/Chain.lean ====
section
/-! DEFINITION. The 128-bit units ADC128 and SBB128: two 64-bit cells in a chain (41_add.md R51, 42_sub.md R57). -/

namespace Sys2Proof.Machine

/-- What a chain computes: the two result words, and the carries (ADD) or borrows (SUB) out of the low and the
high cell, the nets `c_lo` and `c_hi` (10_state.md R15). -/
structure ChainOut where
  rHi : Word
  rLo : Word
  cLo : Bool
  cHi : Bool
  deriving DecidableEq, Repr

/-- ADC128 over any implementation of the cells: the low cell's carry-in is 0, its carry-out is the high
cell's carry-in (R51). There is no carry-in from outside (92_eei_decisions.md D18). -/
def adc128With (m : AdderImpl) (a b : U128) : ChainOut :=
  let lo := m.add a.low b.low false
  let hi := m.add a.high b.high lo.carry
  { rHi := hi.word, rLo := lo.word, cLo := lo.carry, cHi := hi.carry }

/-- SBB128 over any implementation of the cells: the low cell's borrow-in is 0, its borrow-out is the high
cell's borrow-in (R57). -/
def sbb128With (m : AdderImpl) (a b : U128) : ChainOut :=
  let lo := m.sub a.low b.low false
  let hi := m.sub a.high b.high lo.carry
  { rHi := hi.word, rLo := lo.word, cLo := lo.carry, cHi := hi.carry }

/-- `ADC128(A, B)` (R51), over the arithmetic cells. -/
def adc128 (a b : U128) : ChainOut := adc128With arithmeticCells a b

/-- `SBB128(A, B)` (R57), over the arithmetic cells. -/
def sbb128 (a b : U128) : ChainOut := sbb128With arithmeticCells a b

/-- The result words `U(r_hi, r_lo)` of a chain as one value. -/
def ChainOut.value (r : ChainOut) : U128 := { high := r.rHi, low := r.rLo }

end Sys2Proof.Machine
end

