-- ==== Sys2Proof/Machine/Flags.lean ====
section
/-! DEFINITION. The overflow detector OVFDET (43_overflow_detector.md R62) and the bit of the operation code that
tells an implemented operation from a reserved one (30_encoding.md R31). No flag is stored (10_state.md R15). -/

namespace Sys2Proof.Machine

/-- `impl = (op[1] == 0)`: ADD or SUB (R31, R34). -/
def implemented (op : BitVec 2) : Bool := !op.getLsbD 1

/-- `OVFDET(op, c_hi) = (op[1] == 0) and (c_hi == 1)` (R62). -/
def ovfdet (op : BitVec 2) (cHi : Bool) : Bool := implemented op && cHi

end Sys2Proof.Machine
end

