-- ==== Sys2Proof/Syntax.lean ====
section
/-! DEFINITION. The requests of the unit, one constructor per row of spec/opcode_table.json (30_encoding.md R31),
and the host's transaction scripts (R37). -/

namespace Sys2Proof

/-- The four operation codes by name (R31). -/
inductive Op where
  | add
  | sub
  | mul
  | rsv3
  deriving DecidableEq, Repr

/-- A request: an operation and its two operands, the left one `A` first (R30, R31). Every operation
is binary, and a reserved one carries its operands too although it ignores them (R68, R70). -/
inductive Instr where
  /-- `a + b` (R50). -/
  | add (a b : U128)
  /-- `a - b`, `a` the minuend (R56). -/
  | sub (a b : U128)
  /-- `a * b`, reserved and not implemented (R68). -/
  | mul (a b : U128)
  /-- The unassigned code (R70). -/
  | rsv3 (a b : U128)
  deriving DecidableEq, Repr

/-- An operand of a script line (R37): a literal `{high, low}`, a decimal integer, or the name of an earlier line. -/
inductive ScriptOperand where
  | literal (v : U128)
  | decimal (n : Nat)
  | named (x : String)
  deriving DecidableEq, Repr

/-- One line `<name> = <OP> <operand>, <operand>` of a transaction script (R37). -/
structure ScriptLine where
  name : String
  op : Op
  left : ScriptOperand
  right : ScriptOperand
  deriving DecidableEq, Repr

end Sys2Proof
end

