-- ==== Sys2Proof/Decode.lean ====
section
/-! DEFINITION. The 258-bit request format `REQ`, its decoder and its encoder (30_encoding.md R30, R31). -/

namespace Sys2Proof

/-- The field `op`, `REQ[257:256]` (R30). -/
def reqOp (r : BitVec 258) : BitVec 2 := r.extractLsb' 256 2

/-- The field `a_hi`, `REQ[255:192]` (R30). -/
def reqAHi (r : BitVec 258) : Word := r.extractLsb' 192 64

/-- The field `a_lo`, `REQ[191:128]` (R30). -/
def reqALo (r : BitVec 258) : Word := r.extractLsb' 128 64

/-- The field `b_hi`, `REQ[127:64]` (R30). -/
def reqBHi (r : BitVec 258) : Word := r.extractLsb' 64 64

/-- The field `b_lo`, `REQ[63:0]` (R30). -/
def reqBLo (r : BitVec 258) : Word := r.extractLsb' 0 64

/-- `REQ = {op, a_hi, a_lo, b_hi, b_lo}` (R30). -/
def reqOf (op : BitVec 2) (aHi aLo bHi bLo : Word) : BitVec 258 :=
  op ++ aHi ++ aLo ++ bHi ++ bLo

/-- The value of the `op` field for each operation (R31). -/
def Op.code : Op → BitVec 2
  | .add => 0b00#2
  | .sub => 0b01#2
  | .mul => 0b10#2
  | .rsv3 => 0b11#2

/-- The operation a value of the `op` field selects; all four values do (R31). -/
def Op.ofCode (c : BitVec 2) : Op :=
  if c = 0b00#2 then .add
  else if c = 0b01#2 then .sub
  else if c = 0b10#2 then .mul
  else .rsv3

/-- The operation of a request. -/
def Instr.op : Instr → Op
  | .add _ _ => .add
  | .sub _ _ => .sub
  | .mul _ _ => .mul
  | .rsv3 _ _ => .rsv3

/-- The left operand `A` of a request (R30). -/
def Instr.left : Instr → U128
  | .add a _ => a
  | .sub a _ => a
  | .mul a _ => a
  | .rsv3 a _ => a

/-- The right operand `B` of a request (R30). -/
def Instr.right : Instr → U128
  | .add _ b => b
  | .sub _ b => b
  | .mul _ b => b
  | .rsv3 _ b => b

/-- The request with this operation and these operands. -/
def Op.instr : Op → U128 → U128 → Instr
  | .add, a, b => .add a b
  | .sub, a, b => .sub a b
  | .mul, a, b => .mul a b
  | .rsv3, a, b => .rsv3 a b

/-- The request a 258-bit word writes down. Total: no word of the format is refused (R30, R31, R35). -/
def decode (r : BitVec 258) : Instr :=
  (Op.ofCode (reqOp r)).instr ⟨reqAHi r, reqALo r⟩ ⟨reqBHi r, reqBLo r⟩

/-- The 258-bit word of a request (R30, R31). -/
def encode (i : Instr) : BitVec 258 :=
  reqOf i.op.code i.left.high i.left.low i.right.high i.right.low

/-- Why a string of bits is no request. -/
inductive DecodeReject where
  /-- A bit at or above the stated number of bits is set. Safe: the string is not what it is said to be. -/
  | aboveStatedBits
  /-- A bit above `REQ[257]` is set: the format has no such bit, and there is no longer format (R30). Safe. -/
  | aboveFormat
  deriving DecidableEq, Repr

/-- The request in the `nbits` bits of `w`, missing bits of the format read as zero; a bit that has no place is
rejected by name (R30: "There is no other instruction length and no other format"; DESIGN CHOICE, log entry 11). -/
def decodeBits (nbits w : Nat) : Except DecodeReject Instr :=
  if w >>> nbits ≠ 0 then .error .aboveStatedBits
  else if w >>> 258 ≠ 0 then .error .aboveFormat
  else .ok (decode (BitVec.ofNat 258 w))

/-- What the decoder reads from a word numbered as spec/opcode_table.json numbers it; `none` where it refuses. -/
def decodeTableWord (nbits w : Nat) : Option Instr :=
  match decodeBits nbits w with
  | .ok i => some i
  | .error _ => none

end Sys2Proof
end

