-- ==== Sys2Proof/Machine/State.lean ====
section
/-! DEFINITION. The state of the unit as plain data: the fault status register `FSR`, which is all the spec gives
it (10_state.md R16, R18), and beside it the model's own record of what the host drives, what the ports showed
and which outcomes the run has had. -/

namespace Sys2Proof.Machine

/-- The two fault causes (60_exceptions.md R90). -/
inductive Cause where
  /-- Cause 1: the exact result does not fit in 128 bits (R93). -/
  | arithmeticOverflow
  /-- Cause 2: the operation code has no implementation (R94). -/
  | reservedOperation
  deriving DecidableEq, Repr

/-- The fault status register `FSR`, four bits in two fields (10_state.md R16). -/
structure Fsr where
  /-- `CAUSE`, `FSR[1:0]`: why the unit halted; 0 while it runs. -/
  cause : BitVec 2
  /-- `FOP`, `FSR[3:2]`: the operation code of the faulting transaction. -/
  fop : BitVec 2
  deriving DecidableEq, Repr

/-- The input ports in one clock cycle (10_state.md R19), held for the whole cycle (70_reset_and_hazards.md R115). -/
structure Pins where
  rst : Bool
  reqValid : Bool
  op : BitVec 2
  aHi : Word
  aLo : Word
  bHi : Word
  bLo : Word
  deriving DecidableEq, Repr

/-- The output ports in one clock cycle (10_state.md R19). -/
structure Ports where
  reqReady : Bool
  rspValid : Bool
  resHi : Word
  resLo : Word
  carryLo : Bool
  carryHi : Bool
  rspFault : Bool
  fault : Bool
  faultCause : BitVec 2
  faultOp : BitVec 2
  deriving DecidableEq, Repr

/-- The outcome of an accepted request (30_encoding.md R33). A fault carries no value (43_overflow_detector.md R64). -/
inductive Response where
  /-- `Ok(result, c_lo)`. -/
  | ok (result : U128) (cLo : Bool)
  /-- `Fault(cause, op)`. -/
  | fault (cause : Cause) (op : Op)
  deriving DecidableEq, Repr

/-- The machine. `fsr` is the unit's whole state (R18); the other three fields are the model's own (DESIGN
CHOICE, log entries 2, 3, 4). -/
structure State where
  /-- The fault status register (R16). -/
  fsr : Fsr
  /-- The output ports as they stood in the last completed cycle (R19, R34). -/
  ports : Ports
  /-- What the host drives on the input ports in the cycles to come, the next cycle first (R117); idle after the last. -/
  inputs : List Pins
  /-- The outcomes of this run's accepted requests, oldest first (R33, R117). -/
  responses : List Response
  deriving DecidableEq, Repr

/-- Why a step would stop. The spec gives every clock cycle of the unit an effect (R34), and a fault of the
unit is a next state with `FSR` written (R95), so no step ever stops and there is no reason to name (DEDUCED,
log entry 1). -/
inductive Fault where
  deriving DecidableEq, Repr

/-- Why the model would give an instruction no meaning. -/
inductive Refusal where
  /-- Raised by an arm of `exec` for an instruction that has no meaning yet; no arm raises it any more. Safe. -/
  | notModelled (mnemonic : String)
  deriving DecidableEq, Repr

/-- The machine right after reset: `FSR.CAUSE = 0`, `FSR.FOP = 0` (70_reset_and_hazards.md R110, R112). No request has
been presented, no outcome recorded, and the ports show 0, as in a cycle with `rst = 1` and `FSR` clear (R111; DESIGN
CHOICE, log entries 2, 3 and 4). -/
def State.reset : State :=
  { fsr := { cause := 0#2, fop := 0#2 }
    ports :=
      { reqReady := false, rspValid := false, resHi := 0, resLo := 0, carryLo := false, carryHi := false
        rspFault := false, fault := false, faultCause := 0#2, faultOp := 0#2 }
    inputs := []
    responses := [] }

end Sys2Proof.Machine
end

