-- ==== Sys2Proof/Machine/Operands.lean ====
section
/-! DEFINITION. The operand form of the unit: the words on the request ports, used as they stand
(30_encoding.md R30, R32), and the flat request word they make. -/

namespace Sys2Proof.Machine

/-- The flat request word of the request ports (R30). -/
def Pins.req (p : Pins) : BitVec 258 := reqOf p.op p.aHi p.aLo p.bHi p.bLo

/-- The request on the ports. -/
def Pins.instr (p : Pins) : Instr := decode p.req

/-- The left operand `A = U(a_hi, a_lo)` on the ports (R19). -/
def Pins.left (p : Pins) : U128 := { high := p.aHi, low := p.aLo }

/-- The right operand `B = U(b_hi, b_lo)` on the ports (R19). -/
def Pins.right (p : Pins) : U128 := { high := p.bHi, low := p.bLo }

/-- The ports of a cycle in which the host presents the request of a flat word, with `rst = 0` (R30, R118). -/
def Pins.ofReq (r : BitVec 258) : Pins :=
  { rst := false, reqValid := true, op := reqOp r, aHi := reqAHi r, aLo := reqALo r, bHi := reqBHi r, bLo := reqBLo r }

/-- The ports of a cycle in which the host presents a request. -/
def Pins.ofInstr (i : Instr) : Pins := Pins.ofReq (encode i)

/-- The ports of an idle cycle: `req_valid = 0` (R118). -/
def Pins.idle : Pins :=
  { rst := false, reqValid := false, op := 0, aHi := 0, aLo := 0, bHi := 0, bLo := 0 }

/-- What the host drives in the next cycle; it idles when it has issued its last one (R117, R118; DESIGN
CHOICE, log entry 2). -/
def State.pinsNow (s : State) : Pins :=
  match s.inputs with
  | [] => Pins.idle
  | p :: _ => p

end Sys2Proof.Machine
end

