-- ==== Sys2Proof/Machine/Ops.lean ====
section
/-! DEFINITION. The shared operations of one clock cycle: reading `FSR`, a cycle that accepts nothing, delivering a
result, taking a fault (60_exceptions.md R95) and reset (70_reset_and_hazards.md R110), the only way out of one
(R98). Each is the effect of a whole cycle, so each consumes the cycle's input. -/

namespace Sys2Proof.Machine

/-- The code of a fault cause (60_exceptions.md R90). -/
def Cause.code : Cause → BitVec 2
  | .arithmeticOverflow => 1#2
  | .reservedOperation => 2#2

/-- `FSR` with no fault recorded (R110). -/
def Fsr.clear : Fsr := { cause := 0#2, fop := 0#2 }

/-- The four bits of `FSR`: `FOP` in `[3:2]`, `CAUSE` in `[1:0]` (10_state.md R16). -/
def Fsr.bits (f : Fsr) : BitVec 4 := f.fop ++ f.cause

/-- The unit accepts a request only while `FSR.CAUSE = 0` (10_state.md R17). -/
def Fsr.running (f : Fsr) : Bool := f.cause == 0#2

/-- The host's input of this cycle is used up; nothing is queued or deferred (10_state.md R18, R111). -/
def State.inputsLeft (s : State) : List Pins := s.inputs.drop 1

/-- The ports of a cycle in which no request is accepted: every response port is 0, and `fault`, `fault_cause` and
`fault_op` show `FSR` (30_encoding.md R34). -/
def quietPorts (rst : Bool) (f : Fsr) : Ports :=
  { reqReady := f.running && !rst, rspValid := false, resHi := 0, resLo := 0, carryLo := false, carryHi := false
    rspFault := false, fault := !f.running, faultCause := f.cause, faultOp := f.fop }

/-- A cycle in which no request is accepted and `rst = 0`: the host idles, or the unit is halted. `FSR` keeps its
value and there is no outcome (10_state.md R17, 30_encoding.md R33, R34). DEDUCED, log entry 1. -/
def State.quietCycle (s : State) : State :=
  { s with ports := quietPorts false s.fsr, inputs := s.inputsLeft }

/-- A cycle with `rst = 1`: nothing is accepted, `FSR` is cleared at its end and a new run begins
(70_reset_and_hazards.md R110, R111; 60_exceptions.md R97). That the record of outcomes is emptied is DESIGN CHOICE, log
entry 4. -/
def State.resetCycle (s : State) : State :=
  { fsr := Fsr.clear, ports := quietPorts true s.fsr, inputs := s.inputsLeft, responses := [] }

/-- An accepted request ends `Ok(result, c_lo)`: the result and the two carries are on the ports, no state
changes (30_encoding.md R33, R34; 43_overflow_detector.md R64). -/
def State.deliver (r : ChainOut) (s : State) : State :=
  { s with
    ports :=
      { quietPorts false s.fsr with
        rspValid := true, resHi := r.rHi, resLo := r.rLo, carryLo := r.cLo, carryHi := r.cHi }
    inputs := s.inputsLeft
    responses := s.responses ++ [.ok r.value r.cLo] }

/-- TAKING A FAULT: an accepted request ends `Fault(k, op)`. No result leaves the unit, `FSR.CAUSE <- k` and
`FSR.FOP <- op` at the end of the cycle, nothing else is saved and control goes nowhere (60_exceptions.md R95).
`carry_lo` and `carry_hi` show the chain's carries (30_encoding.md R34). -/
def State.takeFault (k : Cause) (op : Op) (cLo cHi : Bool) (s : State) : State :=
  { fsr := { cause := k.code, fop := op.code }
    ports := { quietPorts false s.fsr with carryLo := cLo, carryHi := cHi, rspFault := true }
    inputs := s.inputsLeft
    responses := s.responses ++ [.fault k op] }

/-- The cycle of an ADD or SUB request whose chain computed `r`: accepted while running, a fault when the detector
says overflow, a result otherwise (41_add.md R50, 42_sub.md R56). -/
def State.arithmeticCycle (op : Op) (r : ChainOut) (s : State) : State :=
  if s.fsr.running then
    if ovfdet op.code r.cHi then s.takeFault .arithmeticOverflow op r.cLo r.cHi else s.deliver r
  else s.quietCycle

/-- The cycle of a request with a reserved code: accepted while running, and then always a fault, with the
carries forced to 0 (44_mul_reserved.md R68, R70; 60_exceptions.md R94). -/
def State.reservedCycle (op : Op) (s : State) : State :=
  if s.fsr.running then s.takeFault .reservedOperation op false false else s.quietCycle

/-- What the host reads at any time without a request and with `rst = 0`: `req_ready`, `fault`, `fault_cause`,
`fault_op` follow the current `FSR` (70_reset_and_hazards.md R118); the diagnostic is the last two (60_exceptions.md R96). -/
def State.observe (s : State) : Ports := quietPorts false s.fsr

end Sys2Proof.Machine
end

