-- ==== Sys2Proof/Machine/Arith.lean ====
section
/-! DEFINITION. The meanings of the implemented operations ADD and SUB (41_add.md, 42_sub.md). -/

namespace Sys2Proof.Machine

/-- ADD, `a + b` (R50): ADC128, and ArithmeticOverflow exactly when its `c_hi` is 1. -/
def execAdd (a b : U128) (s : State) : Host.Outcome State Fault Refusal :=
  .next (s.arithmeticCycle .add (adc128 a b))

/-- SUB, `a - b` (R56): SBB128, and ArithmeticOverflow exactly when its `c_hi` is 1. -/
def execSub (a b : U128) (s : State) : Host.Outcome State Fault Refusal :=
  .next (s.arithmeticCycle .sub (sbb128 a b))

end Sys2Proof.Machine
end

