-- ==== Sys2Proof/Machine/Reserved.lean ====
section
/-! DEFINITION. The meanings of the two codes without an implementation, MUL and RSV3 (44_mul_reserved.md), and the
contract the source keeps for a later multiplier (R69), which no meaning uses. -/

namespace Sys2Proof.Machine

/-- MUL, `a * b` (R68): always ReservedOperation; the operands are ignored and no product is computed (a fault, not a
refusal: DESIGN CHOICE, log entry 7). -/
def execMul (_a _b : U128) (s : State) : Host.Outcome State Fault Refusal :=
  .next (s.reservedCycle .mul)

/-- RSV3 (R70): always ReservedOperation; the operands are ignored. -/
def execRsv3 (_a _b : U128) (s : State) : Host.Outcome State Fault Refusal :=
  .next (s.reservedCycle .rsv3)

/-- The contract of multiplication as the source records it for a later version of the hardware (R69): the
product when it is at most 2^128 - 1, else ArithmeticOverflow. `none` is that overflow. THIS HARDWARE DOES NOT DO
THIS, and nothing in the model calls it. -/
def mulContract (a b : U128) : Option U128 :=
  let p := a.nat * b.nat
  if p ≤ 2 ^ 128 - 1 then
    some { high := BitVec.ofNat 64 (p / 2 ^ 64), low := BitVec.ofNat 64 p }
  else none

end Sys2Proof.Machine
end

