-- ==== Sys2Proof/Machine/Step.lean ====
section
/-! DEFINITION. One step: one clock cycle of the unit (10_state.md R19, 30_encoding.md R34). -/

namespace Sys2Proof.Machine

/-- One clock cycle on the inputs the host drives in it. Reset wins over a request (60_exceptions.md R97); without
`req_valid` nothing happens (R118); otherwise the request on the ports is presented to the unit. -/
def step (s : State) : Host.Outcome State Fault Refusal :=
  if s.pinsNow.rst then .next s.resetCycle
  else if s.pinsNow.reqValid then exec s.pinsNow.instr s
  else .next s.quietCycle

/-- The state with the request of a table word on the ports in the next cycle (`rst = 0`, `req_valid = 1`),
in place of what the host would have driven then. Nothing else changes; the ports have the 258 bits of the format
whatever the number of bits the word is stated with, the missing ones 0 (DESIGN CHOICE, log entries 2 and 11). -/
def State.withFetchWord (s : State) (_nbits w : Nat) : State :=
  { s with inputs := Pins.ofReq (BitVec.ofNat 258 w) :: s.inputs.drop 1 }

end Sys2Proof.Machine
end

