-- ==== Sys2Proof/Config.lean ====
section
/-! DEFINITION. What an implementation or its host fixes and the spec leaves open: `PTR_BITS` and
`DEBUG_FORMAT` (00_scope.md R7, 92_eei_decisions.md D15, D16). Both are constants without a body. The third
open parameter, `ADDER_IMPL` (D9), is not observable; it is the structure `AdderImpl` of Machine/Cells.lean. -/

namespace Sys2Proof

/-- A host pointer width: any width up to 64 bits; the type has no wider one (R73, 93_implementation_defined.md U6). -/
abbrev PtrBits := Fin 65

/-- Two labels that say which word is which: neither is empty and they differ (R80). -/
def debugLabelsAllowed (high low : List Char) : Bool :=
  !high.isEmpty && !low.isEmpty && high != low

/-- What the Debug rendering leaves open (R80): the order of the two words, whether their digits are padded
to 64, the two labels, and the fixed text around them. Each word has a label that says which word it is, which R80
fixes. PRESUMED shape, log entry 6. The defaults only show that the type has a member. -/
structure DebugFormat where
  highFirst : Bool
  padded : Bool
  opening : List Char
  highLabel : List Char := ['h']
  lowLabel : List Char := ['l']
  afterLabel : List Char
  between : List Char
  closing : List Char
  labelled : debugLabelsAllowed highLabel lowLabel = true := by decide
  deriving DecidableEq, Repr, Inhabited

/-- `PTR_BITS`, the host's pointer width (D16): no value of it is known (DESIGN CHOICE, log entry 5). -/
opaque Config.ptrBits : PtrBits

/-- `DEBUG_FORMAT`, the host's Debug rendering (D15): nothing is known of it but what its type says. -/
opaque Config.debugFormat : DebugFormat

end Sys2Proof
end

