-- ==== Sys2Proof/Machine/Satellites.lean ====
section
/-! DEFINITION. The host-side operations that form an operand and read a result (45_host_satellites.md). None is a
request of the unit, none can fail and none touches `FSR` (R81). -/

namespace Sys2Proof.Machine

/-- `FROM_N`: `high = 0`, `low` the value zero-extended (R72). The spec has it for N = 8, 16, 32, 64 and
`PTR_BITS`, all at most 64 (R73). -/
def fromNarrow {n : Nat} (x : BitVec n) : U128 := { high := 0, low := x.setWidth 64 }

/-- `FROM_8` (R72). -/
def from8 (x : BitVec 8) : U128 := fromNarrow x

/-- `FROM_16` (R72). -/
def from16 (x : BitVec 16) : U128 := fromNarrow x

/-- `FROM_32` (R72). -/
def from32 (x : BitVec 32) : U128 := fromNarrow x

/-- `FROM_64` (R72). -/
def from64 (x : BitVec 64) : U128 := fromNarrow x

/-- `FROM_PTR` on a host whose pointers have `p` bits, at most 64 (R72, R73). -/
def fromPtrOf (p : PtrBits) (x : BitVec p.val) : U128 := fromNarrow x

/-- `FROM_PTR` on the host, whose pointer width is open (R73). -/
def fromPtr (x : BitVec Config.ptrBits.val) : U128 := fromPtrOf Config.ptrBits x

/-- `FROM_128`: `high = v >> 64` truncated, `low = v` truncated (R74). -/
def from128 (v : BitVec 128) : U128 := { high := (v >>> 64).setWidth 64, low := v.setWidth 64 }

/-- `TO_128`: `(high << 64) | low` (R75). -/
def to128 (v : U128) : BitVec 128 := (v.high.setWidth 128 <<< 64) ||| v.low.setWidth 128

/-- `ZERO`, the type's default value (R76, 30_encoding.md R38). -/
def zeroValue : U128 := { high := 0, low := 0 }

/-- `==`: both words equal (R77). -/
def sameValue (x y : U128) : Bool := x.high == y.high && x.low == y.low

/-- The loop of DISPLAY: put the last digit in front of what is built, go on with the quotient, stop at 0 (R79).
The first argument bounds the number of digits. -/
def digitsOf (base : Nat) : Nat → Nat → List Char → List Char
  | 0, _, acc => acc
  | k + 1, n, acc =>
    if n = 0 then acc else digitsOf base k (n / base) (Char.ofNat (48 + n % base) :: acc)

/-- The characters of DISPLAY: `0` for zero, else the decimal digits; 39 are enough for any value (R79). -/
def displayChars (v : U128) : List Char :=
  if v.nat = 0 then ['0'] else digitsOf 10 39 v.nat []

/-- `DISPLAY(V)` (R79). -/
def display (v : U128) : String := String.ofList (displayChars v)

/-- The binary digits of a word, with no leading zero unless `padded` asks for all 64 (R80). -/
def wordBinary (padded : Bool) (w : Word) : List Char :=
  if padded then (List.range 64).map fun i => if w.getLsbD (63 - i) then '1' else '0'
  else if w.toNat = 0 then ['0'] else digitsOf 2 64 w.toNat []

/-- The characters of DEBUG in a given format: each word in binary after its label, in the format's order (R80). -/
def debugChars (f : DebugFormat) (v : U128) : List Char :=
  let high := f.highLabel ++ f.afterLabel ++ wordBinary f.padded v.high
  let low := f.lowLabel ++ f.afterLabel ++ wordBinary f.padded v.low
  f.opening ++ (if f.highFirst then high ++ f.between ++ low else low ++ f.between ++ high) ++ f.closing

/-- `DEBUG(V)` in the host's own format, which is open (R80). -/
def debug (v : U128) : String := String.ofList (debugChars Config.debugFormat v)

/-- The host's pre-check for ADD: `nat(B) <= 2^128 - 1 - nat(A)` (43_overflow_detector.md R66). -/
def addFits (a b : U128) : Bool := decide (b.nat ≤ 2 ^ 128 - 1 - a.nat)

/-- The host's pre-check for SUB: `nat(A) >= nat(B)` (43_overflow_detector.md R66). -/
def subFits (a b : U128) : Bool := decide (b.nat ≤ a.nat)

end Sys2Proof.Machine
end

