-- ==== Sys2Proof/Machine/Script.lean ====
section
/-! DEFINITION. How the host issues a transaction script (30_encoding.md R37): one request a line, in order, each
operand a literal, a decimal, or the result the host kept under an earlier line's name. What R37 leaves open is DESIGN
CHOICE, log entry 13. -/

namespace Sys2Proof.Machine

/-- What became of a line (R37, and the programs of 95_test_vectors.md section 3). -/
inductive LineStatus where
  /-- Accepted, with its outcome. -/
  | done (r : Response)
  /-- Presented and not accepted: the unit is halted (10_state.md R17). -/
  | notAccepted
  /-- Not presented: an operand names a line that has no value (R37). -/
  | notFormed
  deriving DecidableEq, Repr

/-- The host and the unit in the middle of a script: the unit, the results the host keeps (newest first) and the
status of the lines so far (oldest first). -/
structure ScriptRun where
  machine : State
  kept : List (String × U128)
  lines : List LineStatus
  deriving DecidableEq, Repr

/-- The value of an operand, if it has one: a decimal is converted as R74 says and must be below 2^128 (R37). -/
def operandValue (kept : List (String × U128)) : ScriptOperand → Option U128
  | .literal v => some v
  | .decimal n => if n < 2 ^ 128 then some (from128 (BitVec.ofNat 128 n)) else none
  | .named x => kept.lookup x

/-- The outcome the host sees at the end of a cycle: the last one recorded, if this cycle gave one (R33). -/
def State.outcomeNow (s : State) : Option Response :=
  if s.ports.rspValid || s.ports.rspFault then s.responses.getLast? else none

/-- What the host keeps after a line: its result, when it ended `Ok` (R37). -/
def keepResult (x : String) (r : Option Response) (kept : List (String × U128)) : List (String × U128) :=
  match r with
  | some (.ok v _) => (x, v) :: kept
  | _ => kept

/-- How a presented line is recorded. -/
def lineStatus : Option Response → LineStatus
  | some r => .done r
  | none => .notAccepted

/-- One line: form the request, present it for one cycle, keep the result (R37). -/
def issueLine (l : ScriptLine) (r : ScriptRun) : Host.Outcome ScriptRun Fault Refusal :=
  match operandValue r.kept l.left, operandValue r.kept l.right with
  | some a, some b =>
    match step { r.machine with inputs := [Pins.ofInstr (l.op.instr a b)] } with
    | .next t =>
      .next
        { machine := t
          kept := keepResult l.name t.outcomeNow r.kept
          lines := r.lines ++ [lineStatus t.outcomeNow] }
    | .fault e => .fault e
    | .refused e => .refused e
  | _, _ => .next { r with lines := r.lines ++ [.notFormed] }

/-- A script, line by line in order (R37). -/
def runScript : List ScriptLine → ScriptRun → Host.Outcome ScriptRun Fault Refusal
  | [], r => .next r
  | l :: rest, r =>
    match issueLine l r with
    | .next r' => runScript rest r'
    | .fault e => .fault e
    | .refused e => .refused e

/-- The start of a script: the unit after reset, nothing kept (95_test_vectors.md section 3). -/
def ScriptRun.start : ScriptRun := { machine := State.reset, kept := [], lines := [] }

end Sys2Proof.Machine
end

