-- ==== Sys2Proof/Safety.lean ====
section
/-! DEFINITION. The terms the statements use: the spec's reference step on exact integers (00_scope.md R11), the port
equations (30_encoding.md R34), what a run is (70_reset_and_hazards.md R117) and the invariants of the machine. -/

namespace Sys2Proof.Safety

open Sys2Proof.Machine

/-- The outcome of the reference step (R11). -/
inductive Transaction where
  | notAccepted
  | ok (result : U128) (cLo : Bool)
  | fault (cause : Cause) (op : Op)
  deriving DecidableEq, Repr

/-- The value of an integer below 2^128. -/
def valueOf (n : Nat) : U128 := { high := BitVec.ofNat 64 (n / 2 ^ 64), low := BitVec.ofNat 64 n }

/-- What an accepted request does, on exact integers: a fault exactly on the conditions of R90, the exact sum
or difference otherwise; `c_lo` is the carry or borrow of the low words (R50, R56, R68, R70). -/
def exactOutcome : Instr → Response
  | .add a b =>
    if 2 ^ 128 ≤ a.nat + b.nat then .fault .arithmeticOverflow .add
    else .ok (valueOf (a.nat + b.nat)) (decide (2 ^ 64 ≤ a.low.toNat + b.low.toNat))
  | .sub a b =>
    if a.nat < b.nat then .fault .arithmeticOverflow .sub
    else .ok (valueOf (a.nat - b.nat)) (decide (a.low.toNat < b.low.toNat))
  | .mul _ _ => .fault .reservedOperation .mul
  | .rsv3 _ _ => .fault .reservedOperation .rsv3

/-- The reference step (R11): not accepted while `CAUSE` is not 0, else the exact outcome. -/
def referenceStep (f : Fsr) (i : Instr) : Transaction :=
  if f.cause = 0#2 then
    match exactOutcome i with
    | .ok v c => .ok v c
    | .fault k op => .fault k op
  else .notAccepted

/-- `FSR` after the reference step (R11): written by a fault, unchanged otherwise. -/
def fsrAfter (f : Fsr) : Transaction → Fsr
  | .notAccepted => f
  | .ok _ _ => f
  | .fault k op => { cause := k.code, fop := op.code }

/-- The outcome to record for the reference step: none when the request is not accepted (R33). -/
def recorded : Transaction → List Response
  | .notAccepted => []
  | .ok v c => [.ok v c]
  | .fault k op => [.fault k op]

/-- A run on the reference step: `FSR` and the list of outcomes after a list of requests (R117). -/
def referenceRun : Fsr → List Instr → Fsr × List Response
  | f, [] => (f, [])
  | f, i :: rest =>
    let t := referenceStep f i
    let r := referenceRun (fsrAfter f t) rest
    (r.1, recorded t ++ r.2)

/-- `accept = req_valid and req_ready` (R34). -/
def accept (p : Pins) (f : Fsr) : Bool := p.reqValid && (f.cause == 0#2 && !p.rst)

/-- The four chain outputs R34 selects by the operation code. -/
def selected (p : Pins) : ChainOut :=
  if p.op = 0b00#2 then adc128 p.left p.right
  else if p.op = 0b01#2 then sbb128 p.left p.right
  else { rHi := 0, rLo := 0, cLo := false, cHi := false }

/-- `ovf = impl and c_hi` (R34). -/
def overflow (p : Pins) : Bool := (p.op.getLsbD 1 == false) && (selected p).cHi

/-- `rsp_valid` (R34). -/
def rspValid (p : Pins) (f : Fsr) : Bool := accept p f && (p.op.getLsbD 1 == false) && !overflow p

/-- `rsp_fault` (R34). -/
def rspFault (p : Pins) (f : Fsr) : Bool := accept p f && (overflow p || !(p.op.getLsbD 1 == false))

/-- The response ports as R34's equations of the request ports and `FSR`. -/
def portEquations (p : Pins) (f : Fsr) : Ports :=
  { reqReady := f.cause == 0#2 && !p.rst
    rspValid := rspValid p f
    resHi := if rspValid p f then (selected p).rHi else 0
    resLo := if rspValid p f then (selected p).rLo else 0
    carryLo := if accept p f && (p.op.getLsbD 1 == false) then (selected p).cLo else false
    carryHi := if accept p f && (p.op.getLsbD 1 == false) then (selected p).cHi else false
    rspFault := rspFault p f
    fault := f.cause != 0#2
    faultCause := f.cause
    faultOp := f.fop }

/-- `FSR` after the rising edge that ends the cycle (R34). -/
def edgeFsr (p : Pins) (f : Fsr) : Fsr :=
  if p.rst then { cause := 0#2, fop := 0#2 }
  else if rspFault p f then { cause := if overflow p then 1 else 2, fop := p.op }
  else f

/-- The invariants of `FSR` (10_state.md R16). -/
def FsrLegal (f : Fsr) : Prop :=
  f.cause ≠ 3#2 ∧ (f.cause = 0#2 → f.fop = 0#2) ∧ (f.cause = 1#2 → f.fop = 0#2 ∨ f.fop = 1#2) ∧
    (f.cause = 2#2 → f.fop = 2#2 ∨ f.fop = 3#2)

/-- An outcome that is a result. -/
def isOk : Response → Bool
  | .ok _ _ => true
  | .fault _ _ => false

/-- The record of a run agrees with `FSR` (R117): while no fault is recorded every outcome is `Ok`; otherwise the
last outcome is the fault `FSR` names and every one before it is `Ok`. -/
def RecordAgrees (s : State) : Prop :=
  (s.fsr.cause = 0#2 ∧ ∀ r ∈ s.responses, isOk r = true) ∨
    ∃ k op earlier, s.responses = earlier ++ [.fault k op] ∧ (∀ r ∈ earlier, isOk r = true) ∧
      s.fsr = { cause := k.code, fop := op.code }

/-- What the output ports never show (R34, R64): a result and a fault together; result words without a result;
a result, a fault or a carry in a cycle whose `req_ready` is 0. -/
def PortsSane (p : Ports) : Prop :=
  ¬(p.rspValid = true ∧ p.rspFault = true) ∧
    (p.rspValid = false → p.resHi = 0 ∧ p.resLo = 0) ∧
    (p.reqReady = false → p.rspValid = false ∧ p.rspFault = false ∧ p.carryLo = false ∧ p.carryHi = false) ∧
    (p.rspValid = true → p.carryHi = false) ∧
    (p.fault = true ↔ p.faultCause ≠ 0#2) ∧ (p.fault = true → p.reqReady = false)

/-- The ports of the last cycle and the record agree: a result on the ports is the last outcome, and a fault on
them is the last outcome and stands in `FSR` (R33, R34, R95). -/
def PortsRecorded (s : State) : Prop :=
  (s.ports.rspValid = true →
      s.responses.getLast? = some (.ok { high := s.ports.resHi, low := s.ports.resLo } s.ports.carryLo)) ∧
    (s.ports.rspFault = true → ∃ k op, s.responses.getLast? = some (.fault k op) ∧
      s.fsr = { cause := k.code, fop := op.code })

/-- The invariant of the machine. -/
def Inv (s : State) : Prop :=
  FsrLegal s.fsr ∧ RecordAgrees s ∧ PortsSane s.ports ∧ PortsRecorded s

/-- The ports of a cycle that ends `Ok`, with `FSR` as it stands in that cycle (R34). -/
def portsOk (v : U128) (cLo : Bool) (f : Fsr) : Ports :=
  { reqReady := true, rspValid := true, resHi := v.high, resLo := v.low, carryLo := cLo, carryHi := false
    rspFault := false, fault := false, faultCause := 0#2, faultOp := f.fop }

/-- The ports of a cycle that ends in a fault: `FSR` is written at its end, so `fault` is still 0 (R34). -/
def portsFault (cLo cHi : Bool) (f : Fsr) : Ports :=
  { reqReady := true, rspValid := false, resHi := 0, resLo := 0, carryLo := cLo, carryHi := cHi
    rspFault := true, fault := false, faultCause := 0#2, faultOp := f.fop }

/-- The ports of a cycle that accepts nothing (R34, R111). -/
def portsSilent (rst : Bool) (f : Fsr) : Ports :=
  { reqReady := f.cause == 0#2 && !rst, rspValid := false, resHi := 0, resLo := 0, carryLo := false, carryHi := false
    rspFault := false, fault := f.cause != 0#2, faultCause := f.cause, faultOp := f.fop }

/-- Presented in `s`, the request ends `Ok(v, c)`: the ports show it and no state of the unit changes (R33, R34, R50). -/
def EndsOk (i : Instr) (s : State) (v : U128) (c : Bool) : Prop :=
  ∃ t, exec i s = .next t ∧ t.ports = portsOk v c s.fsr ∧ t.fsr = s.fsr

/-- Presented in `s`, the request ends `Fault(k, op)`: the ports show a fault and no result, and `FSR` names the cause
and the operation (R33, R34, R95). -/
def EndsFault (i : Instr) (s : State) (k : Cause) (op : Op) : Prop :=
  ∃ t cLo cHi, exec i s = .next t ∧ t.ports = portsFault cLo cHi s.fsr ∧ t.fsr = { cause := k.code, fop := op.code }

/-- Presented in `s`, the request is not accepted: no response port shows anything and no state of the unit changes
(R17, R34). -/
def TurnedAway (i : Instr) (s : State) : Prop :=
  ∃ t, exec i s = .next t ∧ t.ports = portsSilent false s.fsr ∧ t.fsr = s.fsr

/-- A run so far is final exactly when no fault is recorded (R117). -/
def Final (s : State) : Prop := s.fsr.cause = 0#2

end Sys2Proof.Safety
end

