-- ==== Sys2Proof/WellFormed.lean ====
section
/-! DEFINITION. Which terms of the syntax are well formed. The spec forbids no request (00_scope.md R9,
30_encoding.md R32, R35), so a request always is; what can be ill formed is a flat request word, a script and
a host parameter: a pointer width, or the labels of a Debug format (`debugLabelsAllowed`, Config.lean, a field of the
format's type, so that no format lacks them). -/

namespace Sys2Proof

/-- Every request is well formed: each operand is any bit pattern and each code has an outcome (R9, R32, R35). -/
def Instr.wellFormed : Instr → Bool
  | .add _ _ => true
  | .sub _ _ => true
  | .mul _ _ => true
  | .rsv3 _ _ => true

/-- A flat request word has 258 bits and no more (R30). -/
def requestWordFits (w : Nat) : Bool := w >>> 258 == 0

/-- A host pointer is no wider than 64 bits (R73). -/
def pointerWidthAllowed (n : Nat) : Bool := decide (n ≤ 64)

/-- A script operand is a literal, a decimal below 2^128, or a name that an earlier line bears (R37). -/
def ScriptOperand.wellFormed (known : List String) : ScriptOperand → Bool
  | .literal _ => true
  | .decimal n => decide (n < 2 ^ 128)
  | .named x => known.contains x

/-- A script's lines in order, each naming only lines before it (R37); `known` holds the names so far. -/
def scriptWellFormed : List String → List ScriptLine → Bool
  | _, [] => true
  | known, l :: rest =>
    l.left.wellFormed known && l.right.wellFormed known && scriptWellFormed (l.name :: known) rest

end Sys2Proof
end

