-- ==== Sys2Proof/Certificates/Slice0/Obligations.lean ====
section
/-! DEFINITION. The statements for the provers, each from the rule of spec/ its docstring names. -/

open Sys2Proof Sys2Proof.Machine Sys2Proof.Safety

/-! ## Requests: the format and the decoder -/

/-- Words written out from R30 and R31, one per operation, are the requests they stand for; the second is the worked
encoding of 30_encoding.md section 7. -/
def Obligations.RequestWordsReadBack : Prop :=
  decodeTableWord 264 0x0_0123456789ABCDEF_FEDCBA9876543210_1111111111111111_2222222222222222
      = some (.add ⟨0x0123456789ABCDEF#64, 0xFEDCBA9876543210#64⟩ ⟨0x1111111111111111#64, 0x2222222222222222#64⟩) ∧
    decodeTableWord 264 0x0_0000000000000000_FFFFFFFFFFFFFFFF_0000000000000000_0000000000000001
      = some (.add ⟨0x0#64, 0xFFFFFFFFFFFFFFFF#64⟩ ⟨0x0#64, 0x1#64⟩) ∧
    decodeTableWord 264 0x1_0000000000000005_0000000000000000_0000000000000004_FFFFFFFFFFFFFFFF
      = some (.sub ⟨0x5#64, 0x0#64⟩ ⟨0x4#64, 0xFFFFFFFFFFFFFFFF#64⟩) ∧
    decodeTableWord 264 0x2_0000000000000000_000000000000000A_0000000000000000_0000000000000014
      = some (.mul ⟨0x0#64, 0xA#64⟩ ⟨0x0#64, 0x14#64⟩) ∧
    decodeTableWord 264 0x3_0000000000000001_0000000000000002_0000000000000003_0000000000000004
      = some (.rsv3 ⟨0x1#64, 0x2#64⟩ ⟨0x3#64, 0x4#64⟩)

/-- R30, R9: every request is well formed and the decoder reads it back from its word, with all four operand words. -/
def Obligations.DecodeOfEncodeIsTheRequest : Prop :=
  ∀ i : Instr, i.wellFormed = true ∧ decode (encode i) = i ∧ decodeTableWord 258 (encode i).toNat = some i

/-- R30, R31: every word of the format is the word of the request it decodes to; no bit of it is ignored. -/
def Obligations.EncodeOfDecodeIsTheWord : Prop :=
  ∀ r : BitVec 258, encode (decode r) = r

/-- R30: no word with a bit above the 258 of the format is a request, and every word of the format is one. That the
decoder reads a word stated with a number of bits, and refuses one with a bit above them, is the model's choice (log
entry 11, DESIGN CHOICE). -/
def Obligations.OnlyWordsAboveTheFormatAreRejected : Prop :=
  ∀ nbits w : Nat,
    (decodeTableWord nbits w = none ↔ 2 ^ nbits ≤ w ∨ 2 ^ 258 ≤ w) ∧
      (w < 2 ^ nbits → requestWordFits w = true → ∃ i, decodeTableWord nbits w = some i)

/-- R31: the code of each operation; `op[1]` alone tells implemented from reserved, `op[0]` alone ADD from SUB among the
implemented. -/
def Obligations.OperationCodes : Prop :=
  (∀ a b, reqOp (encode (.add a b)) = 0b00#2 ∧ reqOp (encode (.sub a b)) = 0b01#2 ∧
      reqOp (encode (.mul a b)) = 0b10#2 ∧ reqOp (encode (.rsv3 a b)) = 0b11#2) ∧
    ∀ r : BitVec 258,
      ((reqOp r).getLsbD 1 = false ↔ (decode r).op = .add ∨ (decode r).op = .sub) ∧
        ((reqOp r).getLsbD 1 = false → ((reqOp r).getLsbD 0 = false ↔ (decode r).op = .add))

/-! ## A step -/

/-- R30, R34, R97: in a cycle with `rst = 0` and `req_valid = 1` the step is `exec` of the request on the ports, and
nothing is done around it: `exec` itself uses up the cycle's input. -/
def Obligations.StepRunsThePresentedRequest : Prop :=
  ∀ (s : State) (p : Pins) (rest : List Pins), s.inputs = p :: rest → p.rst = false → p.reqValid = true →
    step s = exec (decode (reqOf p.op p.aHi p.aLo p.bHi p.bLo)) s ∧
      ∀ t, step s = .next t → t.inputs = rest

/-- R30: a word placed where the next cycle's request is taken from is the request the step runs. -/
def Obligations.StepRunsTheFetchedWord : Prop :=
  ∀ (s : State) (nbits w : Nat) (i : Instr), decodeTableWord nbits w = some i →
    step (s.withFetchWord nbits w) = exec i (s.withFetchWord nbits w) ∧
      (s.withFetchWord nbits w).fsr = s.fsr ∧ (s.withFetchWord nbits w).responses = s.responses

/-- R34: the response ports are these combinational functions of the request ports of the cycle and `FSR`, and `FSR`
changes at the edge as R34 says, in every state and on every input. What the ports are driven with when the list of
inputs has run out, and that a halted cycle is a next state, are the model's choices (log entries 2 and 1). -/
def Obligations.StepMeetsThePortEquations : Prop :=
  (∀ s : State, ∃ t, step s = .next t ∧ t.ports = portEquations s.pinsNow s.fsr ∧
      t.fsr = edgeFsr s.pinsNow s.fsr) ∧
    ∀ (p : Pins) (f : Fsr),
      ¬(rspValid p f = true ∧ rspFault p f = true) ∧
        (accept p f = false → portEquations p f = portsSilent p.rst f)

/-- R11: on exact integers, the outcome of a request and the new `FSR` are a function of `FSR` and the request. That the
outcome is appended to `responses` and that the cycle's input is used up is the model's own record (log entries 2, 4), and
so is that a request turned away is a next state (log entry 1). -/
def Obligations.ExecMeetsTheReferenceStep : Prop :=
  ∀ (i : Instr) (s : State), ∃ t, exec i s = .next t ∧
    t.fsr = fsrAfter s.fsr (referenceStep s.fsr i) ∧
    t.responses = s.responses ++ recorded (referenceStep s.fsr i) ∧ t.inputs = s.inputs.drop 1

/-- The model's own record (log entries 2, 4; DESIGN CHOICE): a step uses up one cycle's input and no more; it appends the exact outcome
of an accepted request to `responses`, leaves them alone in a cycle that accepts nothing, and empties them on reset; a
halted cycle too is a next state (log entry 1). -/
def Obligations.StepRecordsWhatItAccepts : Prop :=
  ∀ s : State, ∃ t, step s = .next t ∧ t.inputs = s.inputs.drop 1 ∧
    t.responses =
      if s.pinsNow.rst then []
      else if accept s.pinsNow s.fsr then s.responses ++ [exactOutcome s.pinsNow.instr]
      else s.responses

/-! ## The cells -/

/-- R40: the equation of ADD64, and that it determines both outputs. -/
def Obligations.AddCellEquation : Prop :=
  ∀ (a b : Word) (cin : Bool),
    (add64 a b cin).carry.toNat * 2 ^ 64 + (add64 a b cin).word.toNat = a.toNat + b.toNat + cin.toNat ∧
      ((add64 a b cin).carry = true ↔ 2 ^ 64 ≤ a.toNat + b.toNat + cin.toNat) ∧
      ∀ r : CellOut, r.carry.toNat * 2 ^ 64 + r.word.toNat = a.toNat + b.toNat + cin.toNat → r = add64 a b cin

/-- R44: the equation of SUB64, and that it determines both outputs; the borrow compares unbounded integers. -/
def Obligations.SubCellEquation : Prop :=
  ∀ (a b : Word) (bin : Bool),
    ((sub64 a b bin).word.toNat : Int) - ((sub64 a b bin).carry.toNat : Int) * 2 ^ 64
        = (a.toNat : Int) - (b.toNat : Int) - (bin.toNat : Int) ∧
      ((sub64 a b bin).carry = true ↔ a.toNat < b.toNat + bin.toNat) ∧
      ∀ r : CellOut,
        (r.word.toNat : Int) - (r.carry.toNat : Int) * 2 ^ 64 = (a.toNat : Int) - (b.toNat : Int) - (bin.toNat : Int) →
          r = sub64 a b bin

/-- R41: the ripple chain equals the arithmetic definition. -/
def Obligations.RippleAdderIsTheAddCell : Prop :=
  ∀ (a b : Word) (cin : Bool), rippleAdd a b cin = add64 a b cin

/-- R42: the lookahead form equals the arithmetic definition, and its carry at the top of any block is the block's
`G or (P and c)` of the carry at its bottom. -/
def Obligations.LookaheadAdderIsTheAddCell : Prop :=
  ∀ (a b : Word) (cin : Bool),
    lookaheadAdd a b cin = add64 a b cin ∧
      ∀ j n, lookaheadCarry a b cin (j + n)
        = (groupGenerate a b j n || (groupPropagate a b j n && lookaheadCarry a b cin j))

/-- R45: the ripple borrow chain equals the arithmetic definition. -/
def Obligations.RippleSubtractorIsTheSubCell : Prop :=
  ∀ (a b : Word) (bin : Bool), rippleSub a b bin = sub64 a b bin

/-- R46: SUB64 from ADD64 by complementing the subtrahend and the borrow. -/
def Obligations.ComplementSubtractorIsTheSubCell : Prop :=
  ∀ (a b : Word) (bin : Bool), complementSub a b bin = sub64 a b bin

/-- R43, R47, the closing sentences: the two-step forms equal the cells, and the two partial carries or borrows are never
both 1. -/
def Obligations.TwoStepFormsAreTheCells : Prop :=
  ∀ (a b : Word) (c : Bool),
    twoStepAdd a b c = add64 a b c ∧ twoStepSub a b c = sub64 a b c ∧
      ¬((addStepOne a b).carry = true ∧ (addStepTwo a b c).carry = true) ∧
      ¬((subStepOne a b).carry = true ∧ (subStepTwo a b c).carry = true)

/-- R49: the laws of the cells. -/
def Obligations.CellLaws : Prop :=
  (∀ a b c, add64 a b c = add64 b a c) ∧
    (∀ a, add64 a 0 false = ⟨a, false⟩ ∧ sub64 a 0 false = ⟨a, false⟩ ∧ sub64 a a false = ⟨0, false⟩) ∧
    (∀ a b w d k, sub64 a b w = ⟨d, k⟩ → add64 d b w = ⟨a, k⟩) ∧
    (∀ a b c, (add64 a b c).carry = false ↔ a.toNat + b.toNat + c.toNat ≤ 2 ^ 64 - 1) ∧
    ∀ a b w, (sub64 a b w).carry = false ↔ b.toNat + w.toNat ≤ a.toNat

/-- D9, R42, R61: the structure of the cells is not observable: ripple chains, or a lookahead adder with the subtractor
made from it, give the same two 128-bit units as the arithmetic cells. -/
def Obligations.CellStructureIsNotObservable : Prop :=
  rippleCells.meets ∧ lookaheadCells.meets ∧
    (∀ a b, adc128With rippleCells a b = adc128 a b ∧ sbb128With rippleCells a b = sbb128 a b) ∧
    ∀ a b, adc128With lookaheadCells a b = adc128 a b ∧ sbb128With lookaheadCells a b = sbb128 a b

/-- R55: a comparison of the sum word with an operand is the carry when the carry-in is 0, and not when it is 1: adding
all ones with a carry gives back the operand with carry-out 1. -/
def Obligations.ComparisonIsNotTheCarry : Prop :=
  ∀ a b : Word,
    ((add64 a b false).carry = true ↔ (add64 a b false).word.toNat < a.toNat) ∧
      add64 a max64 true = ⟨a, true⟩

/-! ## The 128-bit units and the detector -/

/-- R52: what ADC128 computes on integers. -/
def Obligations.AddUnitEquation : Prop :=
  ∀ a b : U128,
    (adc128 a b).cHi.toNat * 2 ^ 128 + (adc128 a b).rHi.toNat * 2 ^ 64 + (adc128 a b).rLo.toNat = a.nat + b.nat ∧
      ((adc128 a b).cHi = true ↔ 2 ^ 128 ≤ a.nat + b.nat) ∧
      (adc128 a b).value = valueOf ((a.nat + b.nat) % 2 ^ 128) ∧ (adc128 a b).cHi.toNat = (a.nat + b.nat) / 2 ^ 128

/-- R58: what SBB128 computes on integers. -/
def Obligations.SubUnitEquation : Prop :=
  ∀ a b : U128,
    ((sbb128 a b).rHi.toNat : Int) * 2 ^ 64 + ((sbb128 a b).rLo.toNat : Int) - ((sbb128 a b).cHi.toNat : Int) * 2 ^ 128
        = (a.nat : Int) - (b.nat : Int) ∧
      ((sbb128 a b).cHi = true ↔ a.nat < b.nat) ∧
      (((sbb128 a b).value.nat : Int) = ((a.nat : Int) - (b.nat : Int)) % 2 ^ 128)

/-- R62, R63: the detector, and what it means on integers; the reserved codes never overflow. -/
def Obligations.OverflowDetectorMeansTheResultDoesNotFit : Prop :=
  (∀ (op : BitVec 2) (c : Bool), ovfdet op c = true ↔ op.getLsbD 1 = false ∧ c = true) ∧
    ∀ a b : U128,
      (ovfdet 0b00#2 (adc128 a b).cHi = true ↔ 2 ^ 128 ≤ a.nat + b.nat) ∧
        (ovfdet 0b01#2 (sbb128 a b).cHi = true ↔ a.nat < b.nat)

/-! ## The operations -/

/-- R50: ADD. In the running unit a sum below 2^128 is delivered exactly, with the low words' carry, and `FSR` stays; a
sum of 2^128 or more faults, delivers nothing and is written to `FSR`; a halted unit turns the request away. That this
last cycle is a next state is the model's choice (log entry 1, DEDUCED). -/
def Obligations.AddIsExactOrFaults : Prop :=
  ∀ (a b : U128) (s : State),
    reqOp (encode (.add a b)) = 0b00#2 ∧
    (s.fsr.cause = 0#2 → a.nat + b.nat < 2 ^ 128 →
      ∃ v : U128, v.nat = a.nat + b.nat ∧ EndsOk (.add a b) s v (decide (2 ^ 64 ≤ a.low.toNat + b.low.toNat))) ∧
    (s.fsr.cause = 0#2 → 2 ^ 128 ≤ a.nat + b.nat →
      ∃ t, exec (.add a b) s = .next t ∧ t.fsr = { cause := 1#2, fop := 0b00#2 } ∧
        t.ports = portsFault (decide (2 ^ 64 ≤ a.low.toNat + b.low.toNat)) true s.fsr) ∧
    (s.fsr.cause ≠ 0#2 → TurnedAway (.add a b) s)

/-- R56: SUB. In the running unit a difference of 0 or more is delivered exactly, with the low words' borrow, and `FSR`
stays; a negative one faults, delivers nothing and is written to `FSR`; a halted unit turns the request away. That this
last cycle is a next state is the model's choice (log entry 1, DEDUCED). -/
def Obligations.SubIsExactOrFaults : Prop :=
  ∀ (a b : U128) (s : State),
    reqOp (encode (.sub a b)) = 0b01#2 ∧
    (s.fsr.cause = 0#2 → b.nat ≤ a.nat →
      ∃ v : U128, v.nat = a.nat - b.nat ∧ EndsOk (.sub a b) s v (decide (a.low.toNat < b.low.toNat))) ∧
    (s.fsr.cause = 0#2 → a.nat < b.nat →
      ∃ t, exec (.sub a b) s = .next t ∧ t.fsr = { cause := 1#2, fop := 0b01#2 } ∧
        t.ports = portsFault (decide (a.low.toNat < b.low.toNat)) true s.fsr) ∧
    (s.fsr.cause ≠ 0#2 → TurnedAway (.sub a b) s)

/-- R68: MUL. In the running unit it faults with ReservedOperation on every operand, with both carries 0; a halted unit
turns it away. That this last cycle is a next state is the model's choice (log entry 1, DEDUCED). -/
def Obligations.MulAlwaysFaults : Prop :=
  ∀ (a b : U128) (s : State),
    reqOp (encode (.mul a b)) = 0b10#2 ∧
    (s.fsr.cause = 0#2 →
      ∃ t, exec (.mul a b) s = .next t ∧ t.fsr = { cause := 2#2, fop := 0b10#2 } ∧
        t.ports = portsFault false false s.fsr) ∧
    (s.fsr.cause ≠ 0#2 → TurnedAway (.mul a b) s)

/-- R70: RSV3. In the running unit it faults with ReservedOperation on every operand, with both carries 0; a halted unit
turns it away. That this last cycle is a next state is the model's choice (log entry 1, DEDUCED). -/
def Obligations.UnassignedCodeAlwaysFaults : Prop :=
  ∀ (a b : U128) (s : State),
    reqOp (encode (.rsv3 a b)) = 0b11#2 ∧
    (s.fsr.cause = 0#2 →
      ∃ t, exec (.rsv3 a b) s = .next t ∧ t.fsr = { cause := 2#2, fop := 0b11#2 } ∧
        t.ports = portsFault false false s.fsr) ∧
    (s.fsr.cause ≠ 0#2 → TurnedAway (.rsv3 a b) s)

/-- The frame of every request: besides `FSR` and the ports, which the statements of R50, R56, R68 and R70 give, an
accepted request adds its one outcome to the record and uses up its cycle's input; nothing else of the state exists. The
carries on the ports are those of the operands whether the request ends `Ok` or in a fault (R34). -/
def Obligations.AcceptedRequestsWholeNextState : Prop :=
  ∀ (i : Instr) (s : State), s.fsr.cause = 0#2 →
    exec i s = .next
      { fsr := edgeFsr (Pins.ofInstr i) s.fsr
        ports := portEquations (Pins.ofInstr i) s.fsr
        inputs := s.inputs.drop 1
        responses := s.responses ++ [exactOutcome i] }

/-- R64: gating. For an accepted ADD or SUB the chain's words reach the result ports exactly when the detector is 0;
when it is 1, `rsp_valid` is 0 and both result ports are 0. -/
def Obligations.WrappedWordsNeverLeaveTheUnit : Prop :=
  ∀ (p : Pins) (s : State), s.fsr.cause = 0#2 → p.op.getLsbD 1 = false →
    ∃ t, exec p.instr s = .next t ∧
      (ovfdet p.op (selected p).cHi = true →
        t.ports.rspValid = false ∧ t.ports.resHi = 0 ∧ t.ports.resLo = 0) ∧
      (ovfdet p.op (selected p).cHi = false →
        t.ports.rspValid = true ∧ t.ports.resHi = (selected p).rHi ∧ t.ports.resLo = (selected p).rLo)

/-- R53: identity, commutativity and the add/sub inverse of ADD. -/
def Obligations.AddLaws : Prop :=
  (∀ (a : U128) (s : State), s.fsr.cause = 0#2 →
      EndsOk (.add a zeroValue) s a false ∧ EndsOk (.add zeroValue a) s a false) ∧
    (∀ a b : U128, adc128 a b = adc128 b a) ∧
    (∀ (a b : U128) (s : State), exec (.add a b) s = exec (.add b a) s) ∧
    ∀ (a b : U128) (s : State), s.fsr.cause = 0#2 → b.nat ≤ a.nat →
      ∃ v c c' t, exec (.sub a b) s = .next t ∧ EndsOk (.sub a b) s v c ∧ EndsOk (.add v b) t a c'

/-- R59: the laws of SUB. -/
def Obligations.SubLaws : Prop :=
  (∀ (a : U128) (s : State), s.fsr.cause = 0#2 →
      EndsOk (.sub a zeroValue) s a false ∧ EndsOk (.sub a a) s zeroValue false) ∧
    (∀ (a b : U128) (s : State), s.fsr.cause = 0#2 →
      ((∃ v c, EndsOk (.sub a b) s v c) ↔ b.nat ≤ a.nat) ∧
        ((∃ v c, EndsOk (.sub a b) s v c) ∧ (∃ v c, EndsOk (.sub b a) s v c) ↔ a = b)) ∧
    (∀ (a b : U128) (s : State), s.fsr.cause = 0#2 → b.nat ≤ a.nat →
      ∃ v c c' t, exec (.sub a b) s = .next t ∧ EndsOk (.sub a b) s v c ∧ EndsOk (.add v b) t a c') ∧
    (∀ (a b v : U128) (c : Bool) (s t : State), s.fsr.cause = 0#2 → EndsOk (.add a b) s v c →
      exec (.add a b) s = .next t → ∃ c', EndsOk (.sub v b) t a c') ∧
    ∀ (a b : U128) (s : State), s.fsr.cause = 0#2 → (sbb128 a b).cLo = true → (sbb128 a b).cHi = false →
      EndsOk (.sub a b) s (sbb128 a b).value true

/-- R66: the host's pre-checks tell exactly when the operation ends `Ok` in the running unit. -/
def Obligations.PreChecksPredictTheOutcome : Prop :=
  ∀ (a b : U128) (s : State), s.fsr.cause = 0#2 →
    (addFits a b = true ↔ ∃ v c, EndsOk (.add a b) s v c) ∧
      (addFits a b = false ↔ EndsFault (.add a b) s .arithmeticOverflow .add) ∧
      (subFits a b = true ↔ ∃ v c, EndsOk (.sub a b) s v c) ∧
      (subFits a b = false ↔ EndsFault (.sub a b) s .arithmeticOverflow .sub)

/-! ## Faults, the halted unit, reset -/

/-- R95: taking a fault: no result, `FSR` names the cause and the operation, nothing else is saved, and from then on, after
any number of cycles without reset, `req_ready` is 0 and `fault` is 1. That those cycles are next states, and the list
they take their inputs from, are the model's choices (log entries 1 and 2). -/
def Obligations.FaultEntry : Prop :=
  ∀ (i : Instr) (s : State) (k : Cause) (op : Op), s.fsr.cause = 0#2 → exactOutcome i = .fault k op →
    ∃ t, exec i s = .next t ∧ op = i.op ∧
      t.fsr = { cause := k.code, fop := op.code } ∧
      t.ports.rspValid = false ∧ t.ports.rspFault = true ∧ t.ports.resHi = 0 ∧ t.ports.resLo = 0 ∧
      t.observe.reqReady = false ∧ t.observe.fault = true ∧
      t.observe.faultCause = k.code ∧ t.observe.faultOp = op.code ∧
      ((∀ p ∈ t.inputs, p.rst = false) → ∀ n, ∃ u, Sys2Proof.core.run n t = .next u ∧
        u.observe.reqReady = false ∧ u.observe.fault = true ∧
        u.observe.faultCause = k.code ∧ u.observe.faultOp = op.code)

/-- R90, R93, R94: which requests fault, with which cause, and that no other does. -/
def Obligations.FaultsHaveExactlyTheseCauses : Prop :=
  ∀ (i : Instr) (s : State) (k : Cause) (op : Op), s.fsr.cause = 0#2 →
    (EndsFault i s k op ↔
      (∃ a b, i = .add a b ∧ k = .arithmeticOverflow ∧ op = .add ∧ 2 ^ 128 ≤ a.nat + b.nat) ∨
        (∃ a b, i = .sub a b ∧ k = .arithmeticOverflow ∧ op = .sub ∧ a.nat < b.nat) ∨
        (∃ a b, i = .mul a b ∧ k = .reservedOperation ∧ op = .mul) ∨
        (∃ a b, i = .rsv3 a b ∧ k = .reservedOperation ∧ op = .rsv3))

/-- R17: while `CAUSE` is not 0 the unit accepts no request, produces no result and changes no state, whatever the host
drives short of reset; the reference step gives it no transaction. That such a cycle is a next state is the model's choice (log entry 1). -/
def Obligations.HaltedUnitAcceptsNothing : Prop :=
  ∀ s : State, s.fsr.cause ≠ 0#2 →
    (∀ i, TurnedAway i s ∧ referenceStep s.fsr i = .notAccepted) ∧
    (s.pinsNow.rst = false →
      ∃ t, step s = .next t ∧ t.fsr = s.fsr ∧ t.responses = s.responses ∧ t.ports = portsSilent false s.fsr) ∧
    (s.pinsNow.rst = true → ∃ t, step s = .next t ∧ t.fsr.cause = 0#2)

/-- R17, R98, R110: the halt is for good: over any number of cycles without reset the halted unit keeps `FSR` and the
record of outcomes. That each such cycle is a next state is the model's choice (log entry 1, DEDUCED). -/
def Obligations.HaltLastsUntilReset : Prop :=
  ∀ (k : Nat) (s : State), s.fsr.cause ≠ 0#2 → (∀ p ∈ s.inputs, p.rst = false) →
    ∃ t, Sys2Proof.core.run k s = .next t ∧ t.fsr = s.fsr ∧ t.responses = s.responses

/-- R110, R111: a cycle with `rst = 1` clears `FSR` from any state whatever, also a halted one, and accepts no request,
also when one is presented: `req_ready` is 0 and the response ports are 0. -/
def Obligations.ResetCycleClearsTheUnit : Prop :=
  ∀ (s : State) (p : Pins) (rest : List Pins), s.inputs = p :: rest → p.rst = true →
    ∃ t, step s = .next t ∧ t.fsr = { cause := 0#2, fop := 0#2 } ∧
      t.ports.reqReady = false ∧ t.ports.rspValid = false ∧ t.ports.rspFault = false ∧
      t.ports.resHi = 0 ∧ t.ports.resLo = 0 ∧ t.ports.carryLo = false ∧ t.ports.carryHi = false ∧
      t.observe.reqReady = true

/-- R118: an idle cycle changes nothing: the response ports are 0 but for `req_ready`, `fault`, `fault_cause` and
`fault_op`. A host whose list of inputs has run out idles, and an idle cycle of a halted unit is a next state: the model's
choices (log entries 2 and 1). -/
def Obligations.IdleCycleChangesNothing : Prop :=
  ∀ s : State, s.pinsNow.rst = false → s.pinsNow.reqValid = false →
    ∃ t, step s = .next t ∧ t.fsr = s.fsr ∧ t.responses = s.responses ∧ t.ports = portsSilent false s.fsr ∧
      t.observe = s.observe

/-- R112: what reset leaves in `FSR`, and that the unit is then ready. -/
def Obligations.ResetValues : Prop :=
  State.reset.fsr.cause = 0#2 ∧ State.reset.fsr.fop = 0#2 ∧ State.reset.fsr.bits = 0b0000#4 ∧
    State.reset.observe.reqReady = true ∧ State.reset.observe.fault = false

/-- R16, R95, R110: `FSR` changes in a step only by a fault of the running unit, or by reset. -/
def Obligations.FsrChangesOnlyByFaultOrReset : Prop :=
  ∀ s t : State, step s = .next t → t.fsr ≠ s.fsr →
    (s.pinsNow.rst = true ∧ t.fsr = { cause := 0#2, fop := 0#2 }) ∨
      (s.pinsNow.rst = false ∧ s.pinsNow.reqValid = true ∧ s.fsr.cause = 0#2 ∧
        ∃ k op, exactOutcome s.pinsNow.instr = .fault k op ∧ t.fsr = { cause := k.code, fop := op.code })

/-- R12, R25: an accepted request that ends `Ok` changes no state of the unit, and presented again it ends the same way. -/
def Obligations.OkRequestMayBeRepeated : Prop :=
  ∀ (i : Instr) (s t : State), exec i s = .next t → t.ports.rspValid = true →
    t.fsr = s.fsr ∧ s.fsr.cause = 0#2 ∧ ∃ u, exec i t = .next u ∧ u.ports = t.ports ∧ u.fsr = t.fsr

/-- R11, R12: the outcome depends on no earlier transaction except through `FSR`: two states with the same `FSR` give the
same new `FSR`, the same ports and the same addition to the record. A halted cycle is a next state by the model's
choice (log entry 1); the record is the model's (log entry 4). -/
def Obligations.OutcomeDependsOnFsrAlone : Prop :=
  ∀ (i : Instr) (s s' : State), s.fsr = s'.fsr →
    ∃ t t' added, exec i s = .next t ∧ exec i s' = .next t' ∧ t.fsr = t'.fsr ∧ t.ports = t'.ports ∧
      t.responses = s.responses ++ added ∧ t'.responses = s'.responses ++ added

/-- R26: two requests that both end `Ok` give the same outcomes in either order. -/
def Obligations.OkRequestsDoNotDependOnTheirOrder : Prop :=
  ∀ (i j : Instr) (s : State) (v w : U128) (c d : Bool), EndsOk i s v c → EndsOk j s w d →
    (∃ t, exec i s = .next t ∧ EndsOk j t w d) ∧ ∃ t, exec j s = .next t ∧ EndsOk i t v c

/-! ## Invariants and runs -/

/-- R16: the state after reset meets the invariant. -/
def Obligations.ResetMeetsTheMachineInvariant : Prop := Inv State.reset

/-- R16: `CAUSE` is never 3, `CAUSE = 0` implies `FOP = 0`, `CAUSE = 1` implies `FOP` is 0 or 1, `CAUSE = 2` implies `FOP`
is 2 or 3: every step keeps these. -/
def Obligations.StepKeepsFsrLegal : Prop :=
  FsrLegal State.reset.fsr ∧ ∀ s t : State, FsrLegal s.fsr → step s = .next t → FsrLegal t.fsr

/-- R16, R33, R34, R64, R117: every step from a state with the invariant gives a state with it: `FSR` stays legal, the
record agrees with `FSR`, the ports show no wrapped result, and what they show is what is recorded. The record and the
kept ports, and a halted cycle as a next state, are the model's choices (log entries 3, 4 and 1). -/
def Obligations.StepKeepsTheMachineInvariant : Prop :=
  ∀ s : State, Inv s → ∃ t, step s = .next t ∧ Inv t

/-- R116: every transaction is one step that always completes, and the unit by itself cannot hang; the invariant holds
after any number of cycles from any state that meets it. R116 says too that a halted unit is stopped for good: that its
cycles are next states all the same, in which it accepts nothing, is the model's choice (log entry 1, DEDUCED). -/
def Obligations.EveryRunGoesOnAndKeepsTheInvariant : Prop :=
  ∀ (k : Nat) (s : State), Inv s → ∃ t, Sys2Proof.core.run k s = .next t ∧ Inv t

/-- R117: a list of requests run from any state gives the outcomes of the reference run. The list of inputs, the record,
and a halted cycle as a next state are the model's choices (log entries 2, 4 and 1). -/
def Obligations.RunMeetsTheReferenceRun : Prop :=
  ∀ (reqs : List Instr) (s : State),
    ∃ t, Sys2Proof.core.run reqs.length { s with inputs := reqs.map Pins.ofInstr } = .next t ∧
      t.fsr = (referenceRun s.fsr reqs).1 ∧ t.responses = s.responses ++ (referenceRun s.fsr reqs).2 ∧ t.inputs = []

/-- R117: from reset, the end state is final exactly when every request had an `Ok` outcome; otherwise the outcomes before
the faulting request stand, that request has the outcome `Fault`, and no later one was accepted. The list of inputs, the record, and a halted cycle as a
next state are the model's choices (log entries 2, 4 and 1). -/
def Obligations.RunIsFinalExactlyWhenEveryOutcomeIsOk : Prop :=
  ∀ reqs : List Instr,
    ∃ t, Sys2Proof.core.run reqs.length { State.reset with inputs := reqs.map Pins.ofInstr } = .next t ∧
      (Final t ↔ t.responses = reqs.map exactOutcome ∧ ∀ r ∈ t.responses, isOk r = true) ∧
      (¬Final t → ∃ before i after, reqs = before ++ i :: after ∧ isOk (exactOutcome i) = false ∧
        (∀ j ∈ before, isOk (exactOutcome j) = true) ∧ t.responses = (before ++ [i]).map exactOutcome)

/-- R37, R17: once the unit is halted, a script goes on to its end, no line of it has an outcome, and the unit's `FSR`
stays. How a line is presented, and that a line turned away is a next state, are the model's choices (log entries 13, 1). -/
def Obligations.HaltedScriptHasNoOutcomes : Prop :=
  ∀ (script : List ScriptLine) (r : ScriptRun), r.machine.fsr.cause ≠ 0#2 →
    ∃ r' added, runScript script r = .next r' ∧ r'.machine.fsr = r.machine.fsr ∧ r'.kept = r.kept ∧
      r'.lines = r.lines ++ added ∧ added.length = script.length ∧
      ∀ l ∈ added, l = .notAccepted ∨ l = .notFormed

/-! ## The host's operations -/

/-- R72, R73, R78: conversion from a width of at most 64 bits gives `high = 0` and the same integer; the pointer-sized one
on a 64-bit host is FROM_64. -/
def Obligations.NarrowConversionKeepsTheInteger : Prop :=
  (∀ (n : Nat) (x : BitVec n), pointerWidthAllowed n = true →
      (fromNarrow x).high = 0 ∧ (fromNarrow x).low.toNat = x.toNat ∧ (fromNarrow x).nat = x.toNat) ∧
    (∀ (p : PtrBits) (x : BitVec p.val), (fromPtrOf p x).high = 0 ∧ (fromPtrOf p x).nat = x.toNat) ∧
    (∀ x : BitVec 8, (from8 x).nat = x.toNat) ∧ (∀ x : BitVec 16, (from16 x).nat = x.toNat) ∧
    (∀ x : BitVec 32, (from32 x).nat = x.toNat) ∧ (∀ x : BitVec 64, (from64 x).nat = x.toNat) ∧
    (∀ x : BitVec 64, fromPtrOf 64 x = from64 x) ∧
    ∀ x : BitVec Config.ptrBits.val, (fromPtr x).nat = x.toNat

/-- R74, R75: conversion from and to a native 128-bit integer keeps the integer, and each undoes the other. -/
def Obligations.NativeConversionIsLossless : Prop :=
  (∀ v : BitVec 128, (from128 v).nat = v.toNat ∧ to128 (from128 v) = v) ∧
    ∀ v : U128, (to128 v).toNat = v.nat ∧ from128 (to128 v) = v

/-- R77: equality of both words is equality of the integers. -/
def Obligations.EqualityIsEqualityOfIntegers : Prop :=
  ∀ x y : U128, (sameValue x y = true ↔ x.nat = y.nat) ∧ (sameValue x y = true ↔ x = y)

/-- R79: DISPLAY is the decimal numeral of the value, of 1 to 39 digits with no leading zero but for zero itself. -/
def Obligations.DisplayIsTheDecimalNumeral : Prop :=
  ∀ v : U128,
    displayChars v = Nat.toDigits 10 v.nat ∧ display v = toString v.nat ∧
      1 ≤ (displayChars v).length ∧ (displayChars v).length ≤ 39 ∧
      (∀ c ∈ displayChars v, c.isDigit = true) ∧ ((displayChars v).head? = some '0' → displayChars v = ['0'])

/-- R80: both words appear in DEBUG in binary, each behind a label that says which word it is, in the host's own format and
in every other. That the label stands before its digits is PRESUMED (log entry 6). -/
def Obligations.DebugShowsBothWordsInBinary : Prop :=
  (∀ v : U128, (debug v).toList = debugChars Config.debugFormat v) ∧ ∀ (f : DebugFormat) (v : U128),
    f.highLabel ≠ [] ∧ f.lowLabel ≠ [] ∧ f.highLabel ≠ f.lowLabel ∧
    (f.highLabel ++ f.afterLabel ++ wordBinary f.padded v.high) <:+: debugChars f v ∧
      (f.lowLabel ++ f.afterLabel ++ wordBinary f.padded v.low) <:+: debugChars f v ∧
      ∀ w : Word, wordBinary false w = Nat.toDigits 2 w.toNat ∧ (wordBinary true w).length = 64 ∧
        ∀ i < 64, (wordBinary true w)[i]? = some (if w.getLsbD (63 - i) then '1' else '0')

/-- R69, 90_conflicts.md C1: the recorded contract of a later multiplier, its full product in partial products, and the
two examples of the source by the contract; this hardware ends in neither outcome of it, whatever the operands. -/
def Obligations.RecordedMultiplierContract : Prop :=
  (∀ a b : U128,
      a.nat * b.nat = a.high.toNat * b.high.toNat * 2 ^ 128
        + (a.low.toNat * b.high.toNat + a.high.toNat * b.low.toNat) * 2 ^ 64 + a.low.toNat * b.low.toNat ∧
      (mulContract a b = none ↔ 2 ^ 128 ≤ a.nat * b.nat) ∧
      ∀ v, mulContract a b = some v → v.nat = a.nat * b.nat) ∧
    mulContract (from64 10) (from64 20) = some (from64 200) ∧
    mulContract (from64 max64) (from64 2) = some ⟨0x0000000000000001#64, 0xFFFFFFFFFFFFFFFE#64⟩ ∧
    ∀ (a b : U128) (s : State), (∀ (v : U128) (c : Bool), ¬EndsOk (.mul a b) s v c) ∧
      ¬EndsFault (.mul a b) s .arithmeticOverflow .mul
end

