-- ==== Sys2Proof/Laws/State.lean ====
section
/-! SUPPORT. What each shared update of the state leaves in each field, one lemma a field, each true by unfolding once. -/

namespace Sys2Proof.Machine

@[simp] theorem quietCycle_fsr (s : State) : s.quietCycle.fsr = s.fsr := rfl
@[simp] theorem quietCycle_ports (s : State) : s.quietCycle.ports = quietPorts false s.fsr := rfl
@[simp] theorem quietCycle_inputs (s : State) : s.quietCycle.inputs = s.inputsLeft := rfl
@[simp] theorem quietCycle_responses (s : State) : s.quietCycle.responses = s.responses := rfl

@[simp] theorem resetCycle_fsr (s : State) : s.resetCycle.fsr = Fsr.clear := rfl
@[simp] theorem resetCycle_ports (s : State) : s.resetCycle.ports = quietPorts true s.fsr := rfl
@[simp] theorem resetCycle_inputs (s : State) : s.resetCycle.inputs = s.inputsLeft := rfl
@[simp] theorem resetCycle_responses (s : State) : s.resetCycle.responses = [] := rfl

@[simp] theorem deliver_fsr (r : ChainOut) (s : State) : (s.deliver r).fsr = s.fsr := rfl
@[simp] theorem deliver_inputs (r : ChainOut) (s : State) : (s.deliver r).inputs = s.inputsLeft := rfl
@[simp] theorem deliver_responses (r : ChainOut) (s : State) :
    (s.deliver r).responses = s.responses ++ [.ok r.value r.cLo] := rfl
@[simp] theorem deliver_rspValid (r : ChainOut) (s : State) : (s.deliver r).ports.rspValid = true := rfl
@[simp] theorem deliver_rspFault (r : ChainOut) (s : State) : (s.deliver r).ports.rspFault = false := rfl
@[simp] theorem deliver_resHi (r : ChainOut) (s : State) : (s.deliver r).ports.resHi = r.rHi := rfl
@[simp] theorem deliver_resLo (r : ChainOut) (s : State) : (s.deliver r).ports.resLo = r.rLo := rfl

@[simp] theorem takeFault_fsr (k : Cause) (op : Op) (cLo cHi : Bool) (s : State) :
    (s.takeFault k op cLo cHi).fsr = { cause := k.code, fop := op.code } := rfl
@[simp] theorem takeFault_inputs (k : Cause) (op : Op) (cLo cHi : Bool) (s : State) :
    (s.takeFault k op cLo cHi).inputs = s.inputsLeft := rfl
@[simp] theorem takeFault_responses (k : Cause) (op : Op) (cLo cHi : Bool) (s : State) :
    (s.takeFault k op cLo cHi).responses = s.responses ++ [.fault k op] := rfl
@[simp] theorem takeFault_rspValid (k : Cause) (op : Op) (cLo cHi : Bool) (s : State) :
    (s.takeFault k op cLo cHi).ports.rspValid = false := rfl
@[simp] theorem takeFault_rspFault (k : Cause) (op : Op) (cLo cHi : Bool) (s : State) :
    (s.takeFault k op cLo cHi).ports.rspFault = true := rfl
@[simp] theorem takeFault_resHi (k : Cause) (op : Op) (cLo cHi : Bool) (s : State) :
    (s.takeFault k op cLo cHi).ports.resHi = 0 := rfl
@[simp] theorem takeFault_resLo (k : Cause) (op : Op) (cLo cHi : Bool) (s : State) :
    (s.takeFault k op cLo cHi).ports.resLo = 0 := rfl

@[simp] theorem withFetchWord_fsr (s : State) (nbits w : Nat) : (s.withFetchWord nbits w).fsr = s.fsr := rfl
@[simp] theorem withFetchWord_ports (s : State) (nbits w : Nat) : (s.withFetchWord nbits w).ports = s.ports := rfl
@[simp] theorem withFetchWord_responses (s : State) (nbits w : Nat) :
    (s.withFetchWord nbits w).responses = s.responses := rfl

@[simp] theorem inputsLeft_cons (s : State) (p : Pins) (rest : List Pins) :
    ({ s with inputs := p :: rest } : State).inputsLeft = rest := rfl
theorem inputsLeft_of_cons {s : State} {p : Pins} {rest : List Pins} (h : s.inputs = p :: rest) :
    s.inputsLeft = rest := by simp [State.inputsLeft, h]
theorem pinsNow_of_cons {s : State} {p : Pins} {rest : List Pins} (h : s.inputs = p :: rest) :
    s.pinsNow = p := by simp [State.pinsNow, h]
theorem pinsNow_of_nil {s : State} (h : s.inputs = []) : s.pinsNow = Pins.idle := by simp [State.pinsNow, h]

end Sys2Proof.Machine
end

