-- ==== Sys2Proof/Laws/Ops.lean ====
section
/-! SUPPORT. What the shared operations can do, each said once: the codes, the detector on each code, and the cases of
an arithmetic cycle, a reserved cycle, a presented request and a step. -/

namespace Sys2Proof.Machine

@[simp] theorem ofCode_code (op : Op) : Op.ofCode op.code = op := by cases op <;> rfl
@[simp] theorem code_ofCode (c : BitVec 2) : (Op.ofCode c).code = c := by revert c; decide

@[simp] theorem implemented_add : implemented Op.add.code = true := rfl
@[simp] theorem implemented_sub : implemented Op.sub.code = true := rfl
@[simp] theorem implemented_mul : implemented Op.mul.code = false := rfl
@[simp] theorem implemented_rsv3 : implemented Op.rsv3.code = false := rfl
@[simp] theorem ovfdet_add (c : Bool) : ovfdet Op.add.code c = c := by simp [ovfdet]
@[simp] theorem ovfdet_sub (c : Bool) : ovfdet Op.sub.code c = c := by simp [ovfdet]

@[simp] theorem running_iff (f : Fsr) : f.running = true ↔ f.cause = 0#2 := by simp [Fsr.running]
theorem running_of_zero {f : Fsr} (h : f.cause = 0#2) : f.running = true := by simp [h]
theorem running_of_ne {f : Fsr} (h : f.cause ≠ 0#2) : f.running = false := by simp [Fsr.running, h]
theorem code_ne_zero (k : Cause) : k.code ≠ 0#2 := by cases k <;> decide

/-- The three things an ADD or SUB cycle can do. -/
theorem arithmeticCycle_cases (op : Op) (r : ChainOut) (s : State) :
    (s.fsr.cause = 0#2 ∧ ovfdet op.code r.cHi = true ∧
        s.arithmeticCycle op r = s.takeFault .arithmeticOverflow op r.cLo r.cHi) ∨
      (s.fsr.cause = 0#2 ∧ ovfdet op.code r.cHi = false ∧ s.arithmeticCycle op r = s.deliver r) ∨
      (s.fsr.cause ≠ 0#2 ∧ s.arithmeticCycle op r = s.quietCycle) := by
  unfold State.arithmeticCycle
  by_cases h : s.fsr.cause = 0#2
  · cases ho : ovfdet op.code r.cHi <;> simp [h]
  · simp [h]

/-- The two things a cycle with a reserved code can do. -/
theorem reservedCycle_cases (op : Op) (s : State) :
    (s.fsr.cause = 0#2 ∧ s.reservedCycle op = s.takeFault .reservedOperation op false false) ∨
      (s.fsr.cause ≠ 0#2 ∧ s.reservedCycle op = s.quietCycle) := by
  unfold State.reservedCycle
  by_cases h : s.fsr.cause = 0#2 <;> simp [h]

/-- Everything a presented request can do, whichever it is: a result of its chain, a fault that names it, or
nothing in a halted unit. -/
theorem exec_cases (i : Instr) (s : State) :
    (s.fsr.cause = 0#2 ∧ ∃ r : ChainOut, r.cHi = false ∧ (i.op = .add ∨ i.op = .sub) ∧ exec i s = .next (s.deliver r)) ∨
      (s.fsr.cause = 0#2 ∧ ∃ r : ChainOut, r.cHi = true ∧ (i.op = .add ∨ i.op = .sub) ∧
        exec i s = .next (s.takeFault .arithmeticOverflow i.op r.cLo r.cHi)) ∨
      (s.fsr.cause = 0#2 ∧ (i.op = .mul ∨ i.op = .rsv3) ∧
        exec i s = .next (s.takeFault .reservedOperation i.op false false)) ∨
      (s.fsr.cause ≠ 0#2 ∧ exec i s = .next s.quietCycle) := by
  cases i with
  | add a b =>
    rcases arithmeticCycle_cases .add (adc128 a b) s with ⟨h, ho, he⟩ | ⟨h, ho, he⟩ | ⟨h, he⟩
    · exact .inr (.inl ⟨h, adc128 a b, by simpa using ho, .inl rfl, by simp [exec, execAdd, he, Instr.op]⟩)
    · exact .inl ⟨h, adc128 a b, by simpa using ho, .inl rfl, by simp [exec, execAdd, he]⟩
    · exact .inr (.inr (.inr ⟨h, by simp [exec, execAdd, he]⟩))
  | sub a b =>
    rcases arithmeticCycle_cases .sub (sbb128 a b) s with ⟨h, ho, he⟩ | ⟨h, ho, he⟩ | ⟨h, he⟩
    · exact .inr (.inl ⟨h, sbb128 a b, by simpa using ho, .inr rfl, by simp [exec, execSub, he, Instr.op]⟩)
    · exact .inl ⟨h, sbb128 a b, by simpa using ho, .inr rfl, by simp [exec, execSub, he]⟩
    · exact .inr (.inr (.inr ⟨h, by simp [exec, execSub, he]⟩))
  | mul a b =>
    rcases reservedCycle_cases .mul s with ⟨h, he⟩ | ⟨h, he⟩
    · exact .inr (.inr (.inl ⟨h, .inl rfl, by simp [exec, execMul, he, Instr.op]⟩))
    · exact .inr (.inr (.inr ⟨h, by simp [exec, execMul, he]⟩))
  | rsv3 a b =>
    rcases reservedCycle_cases .rsv3 s with ⟨h, he⟩ | ⟨h, he⟩
    · exact .inr (.inr (.inl ⟨h, .inr rfl, by simp [exec, execRsv3, he, Instr.op]⟩))
    · exact .inr (.inr (.inr ⟨h, by simp [exec, execRsv3, he]⟩))

/-- The three kinds of cycle. -/
theorem step_cases (s : State) :
    (s.pinsNow.rst = true ∧ step s = .next s.resetCycle) ∨
      (s.pinsNow.rst = false ∧ s.pinsNow.reqValid = true ∧ step s = exec s.pinsNow.instr s) ∨
      (s.pinsNow.rst = false ∧ s.pinsNow.reqValid = false ∧ step s = .next s.quietCycle) := by
  unfold step
  cases h : s.pinsNow.rst <;> cases h' : s.pinsNow.reqValid <;> simp

end Sys2Proof.Machine
end

