-- ==== Sys2Proof/Laws/Decode.lean ====
section
/-! SUPPORT. The fields of a request word built from its fields, and what the decoder makes of the request ports. -/

namespace Sys2Proof.Machine

@[simp] theorem reqOp_reqOf (op : BitVec 2) (ah al bh bl : Word) : reqOp (reqOf op ah al bh bl) = op := by
  ext i hi; simp only [reqOp, reqOf]
  simp [BitVec.getElem_extractLsb']; grind
@[simp] theorem reqAHi_reqOf (op : BitVec 2) (ah al bh bl : Word) : reqAHi (reqOf op ah al bh bl) = ah := by
  ext i hi; simp only [reqAHi, reqOf]
  simp [BitVec.getElem_extractLsb']; grind
@[simp] theorem reqALo_reqOf (op : BitVec 2) (ah al bh bl : Word) : reqALo (reqOf op ah al bh bl) = al := by
  ext i hi; simp only [reqALo, reqOf]
  simp [BitVec.getElem_extractLsb']; grind
@[simp] theorem reqBHi_reqOf (op : BitVec 2) (ah al bh bl : Word) : reqBHi (reqOf op ah al bh bl) = bh := by
  ext i hi; simp only [reqBHi, reqOf]
  simp [BitVec.getElem_extractLsb']; grind
@[simp] theorem reqBLo_reqOf (op : BitVec 2) (ah al bh bl : Word) : reqBLo (reqOf op ah al bh bl) = bl := by
  ext i hi; simp only [reqBLo, reqOf]
  simp [BitVec.getElem_extractLsb']; grind

end Sys2Proof.Machine
end

