-- ==== Sys2Proof/Laws/PerInstr.lean ====
section
/-! SUPPORT. A family of statements about each request as syntax: the five fields of its word (30_encoding.md R30). -/

namespace Sys2Proof.Laws.RequestFields

/-- The word of a request has its code and its four operand words in the fields R30 gives them. -/
def Statement (i : Instr) : Prop :=
  reqOp (encode i) = i.op.code ∧ reqAHi (encode i) = i.left.high ∧ reqALo (encode i) = i.left.low ∧
    reqBHi (encode i) = i.right.high ∧ reqBLo (encode i) = i.right.low

theorem add (a b : U128) : Statement (.add a b) := by simp [Statement, encode]
theorem sub (a b : U128) : Statement (.sub a b) := by simp [Statement, encode]
theorem mul (a b : U128) : Statement (.mul a b) := by simp [Statement, encode]
theorem rsv3 (a b : U128) : Statement (.rsv3 a b) := by simp [Statement, encode]

end Sys2Proof.Laws.RequestFields
end

