-- ==== Sys2Proof/Tests/Slice0.lean ====
section
/-! SUPPORT. The model's own tests, each expected value from the spec's tables, and a witness for each statement that has
hypotheses. -/

namespace Sys2Proof.Tests

open Sys2Proof.Machine Sys2Proof.Safety

/-! ## Helpers -/

/-- A property of the next state; false where there is none. -/
def nextHas (o : Host.Outcome State Fault Refusal) (p : State → Bool) : Bool :=
  match o with
  | .next t => p t
  | .fault _ => false
  | .refused _ => false

/-- The unit after reset with these inputs to come. -/
def withInputs (l : List Pins) : State := { State.reset with inputs := l }

/-- The unit halted by an overflowing SUB: `FSR = (1, 0b01)`. -/
def halted : State := { State.reset with fsr := { cause := 1#2, fop := 1#2 } }

/-- A cycle with `rst = 1` and a request on the ports. -/
def resetPins : Pins := { Pins.ofReq (BitVec.ofNat 258 1) with rst := true }

/-- `U(0, n)`. -/
def small (n : Nat) : U128 := { high := 0, low := BitVec.ofNat 64 n }

/-- All the cells of a table as one check. -/
def cellRow (f : Word → Word → Bool → CellOut) (a b : Word) (c : Bool) (w : Word) (d : Bool) : Bool :=
  f a b c == { word := w, carry := d }

/-! ## Ill-formed terms (WellFormed) -/

theorem test_ill_formed_request_word : requestWordFits (1 <<< 258) = false := by decide
theorem test_ill_formed_pointer_width : pointerWidthAllowed 65 = false := by decide
theorem test_ill_formed_debug_labels :
    debugLabelsAllowed ['h'] ['h'] = false ∧ debugLabelsAllowed [] ['l'] = false ∧ debugLabelsAllowed ['h'] [] = false := by
  decide
theorem test_ill_formed_script_decimal :
    scriptWellFormed [] [⟨"t", .add, .decimal (2 ^ 128), .decimal 0⟩] = false := by decide
theorem test_ill_formed_script_name :
    scriptWellFormed [] [⟨"t", .add, .named "u", .decimal 0⟩] = false := by decide
theorem test_well_formed_script :
    scriptWellFormed [] [⟨"t", .add, .decimal 1, .literal (small 2)⟩, ⟨"u", .sub, .named "t", .decimal 3⟩] = true := by
  decide

/-! ## Decoding: words of 95_test_vectors.md sections 2.3 to 2.5, written out by R30 -/

theorem test_decode_add :
    decodeTableWord 264 0x0_0000000000000001_0000000000000002_0000000000000003_0000000000000004
      = some (.add ⟨1#64, 2#64⟩ ⟨3#64, 4#64⟩) := by decide
theorem test_decode_sub :
    decodeTableWord 264 0x1_0000000000000002_0000000000000005_0000000000000003_0000000000000000
      = some (.sub ⟨2#64, 5#64⟩ ⟨3#64, 0#64⟩) := by decide
theorem test_decode_mul :
    decodeTableWord 264 0x2_0000000000000000_FFFFFFFFFFFFFFFF_0000000000000000_0000000000000002
      = some (.mul ⟨0#64, 0xFFFFFFFFFFFFFFFF#64⟩ ⟨0#64, 2#64⟩) := by decide
theorem test_decode_rsv3 :
    decodeTableWord 264 0x3_0000000000000001_0000000000000002_0000000000000003_0000000000000004
      = some (.rsv3 ⟨1#64, 2#64⟩ ⟨3#64, 4#64⟩) := by decide
theorem test_decode_above_format : decodeTableWord 264 (1 <<< 258) = none := by decide
theorem test_encode_worked_example :
    (encode (.add (small (2 ^ 64 - 1)) (small 1))).toNat
      = 0x0_0000000000000000_FFFFFFFFFFFFFFFF_0000000000000000_0000000000000001 := by decide

/-! ## The cells: the rows of R43 and R47 -/

theorem test_add64_corner_rows :
    cellRow add64 0x0000000000000000 0x0000000000000000 true 0x0000000000000001 false &&
    cellRow add64 0xFFFFFFFFFFFFFFFF 0x0000000000000001 false 0x0000000000000000 true &&
    cellRow add64 0xFFFFFFFFFFFFFFFF 0x0000000000000000 true 0x0000000000000000 true &&
    cellRow add64 0xFFFFFFFFFFFFFFFF 0xFFFFFFFFFFFFFFFF false 0xFFFFFFFFFFFFFFFE true &&
    cellRow add64 0xFFFFFFFFFFFFFFFF 0xFFFFFFFFFFFFFFFF true 0xFFFFFFFFFFFFFFFF true &&
    cellRow add64 0x8000000000000000 0x8000000000000000 false 0x0000000000000000 true &&
    cellRow add64 0xAAAAAAAAAAAAAAAA 0x5555555555555555 true 0x0000000000000000 true = true := by decide
theorem test_sub64_corner_rows :
    cellRow sub64 0x0000000000000000 0x0000000000000000 true 0xFFFFFFFFFFFFFFFF true &&
    cellRow sub64 0x0000000000000000 0x0000000000000001 false 0xFFFFFFFFFFFFFFFF true &&
    cellRow sub64 0x0000000000000000 0xFFFFFFFFFFFFFFFF true 0x0000000000000000 true &&
    cellRow sub64 0xFFFFFFFFFFFFFFFF 0xFFFFFFFFFFFFFFFF false 0x0000000000000000 false &&
    cellRow sub64 0xFFFFFFFFFFFFFFFF 0xFFFFFFFFFFFFFFFF true 0xFFFFFFFFFFFFFFFF true &&
    cellRow sub64 0x0000000000000001 0x0000000000000000 true 0x0000000000000000 false &&
    cellRow sub64 0x0000000000000014 0x000000000000000A true 0x0000000000000009 false = true := by decide
theorem test_ripple_carry_through_all_positions :
    rippleCarry 0xAAAAAAAAAAAAAAAA 0x5555555555555555 true 64 = true := by decide
theorem test_ripple_borrow_with_subtrahend_2_64 : rippleBorrow 0 max64 true 64 = true := by decide

/-! ## One request in one step: rows of R54, R60 and 95_test_vectors.md sections 2.3 to 2.5 -/

theorem test_add_carries_into_the_high_word :
    nextHas (step (withInputs [Pins.ofInstr (.add (small (2 ^ 64 - 1)) (small 1))]))
      (fun t => t.ports == portsOk ⟨1#64, 0#64⟩ true State.reset.fsr && t.fsr == State.reset.fsr && t.inputs.isEmpty)
      = true := by decide
theorem test_add_overflow_only_from_the_carry :
    nextHas (exec (.add max128 (small 1)) State.reset)
      (fun t => t.fsr == ⟨1#2, 0#2⟩ && t.ports == portsFault true true State.reset.fsr &&
        t.responses == [.fault .arithmeticOverflow .add]) = true := by decide
theorem test_sub_borrows_from_the_high_word :
    nextHas (exec (.sub ⟨5#64, 0#64⟩ ⟨4#64, max64⟩) State.reset)
      (fun t => t.ports == portsOk (small 1) true State.reset.fsr && t.responses == [.ok (small 1) true]) = true := by
  decide
theorem test_sub_underflow_from_the_borrow_alone :
    nextHas (exec (.sub ⟨1#64, 0#64⟩ ⟨1#64, 1#64⟩) State.reset)
      (fun t => t.fsr == ⟨1#2, 1#2⟩ && t.ports == portsFault true true State.reset.fsr) = true := by decide
theorem test_mul_is_not_200 :
    nextHas (exec (.mul (small 10) (small 20)) State.reset)
      (fun t => t.fsr == ⟨2#2, 2#2⟩ && t.ports == portsFault false false State.reset.fsr) = true := by decide
theorem test_rsv3_faults :
    nextHas (exec (.rsv3 ⟨1#64, 2#64⟩ ⟨3#64, 4#64⟩) State.reset)
      (fun t => t.fsr == ⟨2#2, 3#2⟩ && t.ports.rspFault) = true := by decide
/-- 95_test_vectors.md section 2.7, steps 4 and 5. -/
theorem test_halted_unit_records_no_second_fault :
    nextHas (step { halted with inputs := [Pins.ofInstr (.mul (small 1) (small 1))] })
      (fun t => t.fsr == halted.fsr && t.ports == portsSilent false halted.fsr && t.responses.isEmpty) = true := by
  decide
/-- 95_test_vectors.md section 2.7, step 6. -/
theorem test_reset_wins_over_a_request :
    nextHas (step { halted with inputs := [resetPins] })
      (fun t => t.fsr == State.reset.fsr && !t.ports.reqReady && !t.ports.rspValid && t.observe.reqReady) = true := by
  decide
/-- R16: `FOP` lies in `FSR[3:2]`. -/
theorem test_fsr_bits : Fsr.bits ⟨1#2, 2#2⟩ = 0b1001#4 := by decide

/-! ## The host: rows of 95_test_vectors.md section 2.6, and lines 1 and 2 of its program P4 -/

theorem test_from_narrow_zero_extends : from8 0xFF#8 = small 255 ∧ from16 0x8000#16 = small 0x8000 := by decide
theorem test_from_ptr_32 : fromPtrOf 32 0xFFFFFFFF#32 = small 0xFFFFFFFF := by decide
theorem test_from_128 :
    from128 0x0123456789ABCDEFFEDCBA9876543210#128 = ⟨0x0123456789ABCDEF#64, 0xFEDCBA9876543210#64⟩ := by decide
theorem test_display_max : String.ofList (displayChars max128) = "340282366920938463463374607431768211455" := by decide
theorem test_display_zero_and_30 : display (small 0) = "0" ∧ display (small 30) = "30" := by decide
/-- The orientation example of R80 for the value 30, without its brackets. -/
theorem test_debug_30 :
    debugChars ⟨true, false, [], "high".toList, "low".toList, ": 0b".toList, ", ".toList, [], by decide⟩ (small 30)
      = "high: 0b0, low: 0b11110".toList := by decide
theorem test_script_line_feeds_forward :
    (match runScript [⟨"t0", .sub, .decimal 20, .decimal 10⟩] ScriptRun.start with
      | .next r => operandValue r.kept (.named "t0")
      | _ => none) = some (small 10) := by decide

/-! ## Witnesses: a state and operands that meet the hypotheses of each statement that has any -/

theorem witness_OnlyWordsAboveTheFormatAreRejected : 2 < 2 ^ 264 ∧ requestWordFits 2 = true := by decide
theorem witness_OperationCodes : (reqOp (encode (.sub max128 max128))).getLsbD 1 = false := by decide
theorem witness_StepRunsThePresentedRequest :
    (withInputs [Pins.ofInstr (.add max128 max128)]).inputs = [Pins.ofInstr (.add max128 max128)] ∧
      (Pins.ofInstr (.add max128 max128)).rst = false ∧ (Pins.ofInstr (.add max128 max128)).reqValid = true := by decide
theorem witness_StepRunsTheFetchedWord : decodeTableWord 264 1 = some (.add (small 0) (small 1)) := by decide
theorem witness_StepMeetsThePortEquations :
    State.reset.inputs = [] ∧ accept Pins.idle State.reset.fsr = false := by decide
theorem witness_AddCellEquation :
    true.toNat * 2 ^ 64 + max64.toNat = max64.toNat + max64.toNat + true.toNat := by decide
theorem witness_SubCellEquation :
    (max64.toNat : Int) - (true.toNat : Int) * 2 ^ 64
      = ((0 : Word).toNat : Int) - ((0 : Word).toNat : Int) - (true.toNat : Int) := by decide
theorem witness_CellLaws : sub64 0 max64 true = ⟨0, true⟩ := by decide
theorem witness_AddIsExactOrFaults_fits :
    State.reset.fsr.cause = 0#2 ∧ (⟨max64, max64 - 1⟩ : U128).nat + (small 1).nat < 2 ^ 128 := by decide
theorem witness_AddIsExactOrFaults_overflows :
    State.reset.fsr.cause = 0#2 ∧ 2 ^ 128 ≤ (⟨0x7FFFFFFFFFFFFFFF#64, max64⟩ : U128).nat + (⟨0x8000000000000000#64, 1#64⟩ : U128).nat := by
  decide
theorem witness_SubIsExactOrFaults_fits : State.reset.fsr.cause = 0#2 ∧ max128.nat ≤ max128.nat := by decide
theorem witness_SubIsExactOrFaults_underflows :
    State.reset.fsr.cause = 0#2 ∧ (small 0).nat < (small 1).nat := by decide
theorem witness_halted_unit : halted.fsr.cause ≠ 0#2 := by decide
theorem witness_MulAlwaysFaults : State.reset.fsr.cause = 0#2 ∧ halted.fsr.cause ≠ 0#2 := by decide
theorem witness_UnassignedCodeAlwaysFaults : State.reset.fsr.cause = 0#2 ∧ halted.fsr.cause ≠ 0#2 := by decide
theorem witness_AcceptedRequestsWholeNextState : State.reset.fsr.cause = 0#2 := by decide
theorem witness_WrappedWordsNeverLeaveTheUnit :
    (Pins.ofInstr (.add max128 (small 1))).op.getLsbD 1 = false ∧
      ovfdet (Pins.ofInstr (.add max128 (small 1))).op (selected (Pins.ofInstr (.add max128 (small 1)))).cHi = true ∧
      ovfdet (Pins.ofInstr (.sub max128 max128)).op (selected (Pins.ofInstr (.sub max128 max128))).cHi = false := by decide
theorem witness_AddLaws : State.reset.fsr.cause = 0#2 ∧ (small 1).nat ≤ (small 1).nat := by decide
/-- For R59's converse clause and its last one. -/
theorem witness_SubLaws :
    EndsOk (.add (small 2) (small 3)) State.reset (small 5) false ∧
      (sbb128 ⟨1#64, 0#64⟩ (small 1)).cLo = true ∧ (sbb128 ⟨1#64, 0#64⟩ (small 1)).cHi = false := by
  refine ⟨⟨State.reset.deliver (adc128 (small 2) (small 3)), rfl, ?_, rfl⟩, ?_⟩ <;> decide
theorem witness_PreChecksPredictTheOutcome :
    addFits max128 (small 0) = true ∧ addFits max128 (small 1) = false ∧
      subFits max128 max128 = true ∧ subFits (small 0) (small 1) = false := by decide
theorem witness_FaultEntry :
    State.reset.fsr.cause = 0#2 ∧ (∀ p ∈ State.reset.inputs, p.rst = false) ∧
      exactOutcome (.sub (small 0) (small 1)) = .fault .arithmeticOverflow .sub ∧
      exactOutcome (.mul (small 0) (small 0)) = .fault .reservedOperation .mul := by decide
theorem witness_HaltLastsUntilReset : halted.fsr.cause ≠ 0#2 ∧ ∀ p ∈ halted.inputs, p.rst = false := by decide
theorem witness_ResetCycleClearsTheUnit :
    ({ halted with inputs := [resetPins] } : State).inputs = [resetPins] ∧ resetPins.rst = true := by decide
theorem witness_IdleCycleChangesNothing :
    State.reset.pinsNow.rst = false ∧ State.reset.pinsNow.reqValid = false ∧
      ({ halted with inputs := [Pins.idle] } : State).pinsNow.reqValid = false := by decide
theorem witness_FsrChangesOnlyByFaultOrReset :
    nextHas (step (withInputs [Pins.ofInstr (.mul (small 1) (small 1))])) (fun t => t.fsr != State.reset.fsr) = true := by
  decide
theorem witness_OkRequestMayBeRepeated :
    nextHas (exec (.add (small 1) (small 1)) State.reset) (fun t => t.ports.rspValid) = true := by decide
theorem witness_OutcomeDependsOnFsrAlone : halted.fsr = { halted with inputs := [resetPins] }.fsr := by decide
theorem witness_OkRequestsDoNotDependOnTheirOrder :
    EndsOk (.add (small 2) (small 3)) State.reset (small 5) false ∧
      EndsOk (.sub (small 2) (small 2)) State.reset (small 0) false := by
  refine ⟨⟨State.reset.deliver (adc128 (small 2) (small 3)), rfl, ?_, rfl⟩,
    ⟨State.reset.deliver (sbb128 (small 2) (small 2)), rfl, ?_, rfl⟩⟩ <;> decide
theorem witness_StepKeepsFsrLegal :
    FsrLegal State.reset.fsr ∧ nextHas (step State.reset) (fun t => t.fsr == State.reset.fsr) = true := by
  unfold FsrLegal; decide
/-- A halted unit after one `Ok` and one fault, in an idle cycle: it meets the invariant (for the two statements whose
premise is the invariant). -/
theorem witness_StepKeepsTheMachineInvariant :
    Inv { fsr := halted.fsr, ports := portsSilent false halted.fsr, inputs := []
          responses := [.ok (small 2) false, .fault .arithmeticOverflow .sub] } := by
  refine ⟨by unfold FsrLegal; decide, .inr ⟨.arithmeticOverflow, .sub, [.ok (small 2) false], by decide⟩, ?_, ?_⟩
  · unfold PortsSane; decide
  · exact ⟨fun h => absurd h (by decide), fun h => absurd h (by decide)⟩
theorem witness_RunIsFinalExactlyWhenEveryOutcomeIsOk :
    nextHas (Sys2Proof.core.run 1 (withInputs ([.mul (small 1) (small 1)].map Pins.ofInstr)))
      (fun t => t.fsr.cause != 0#2) = true := by decide
theorem witness_HaltedScriptHasNoOutcomes : ({ ScriptRun.start with machine := halted } : ScriptRun).machine.fsr.cause ≠ 0#2 := by
  decide
theorem witness_NarrowConversionKeepsTheInteger : pointerWidthAllowed 64 = true ∧ pointerWidthAllowed 0 = true := by decide
theorem witness_DisplayIsTheDecimalNumeral : (displayChars (small 0)).head? = some '0' := by decide
theorem witness_RecordedMultiplierContract : mulContract (small 3) (small 4) = some (small 12) := by decide

end Sys2Proof.Tests
end

/-! ## The arithmetic cells and chains on integers -/

namespace Sys2Proof.Machine

open Sys2Proof.Safety

/-- R40: the carry and the sum word are the two halves of the exact sum. -/
theorem add64_equation (a b : Word) (cin : Bool) :
    (add64 a b cin).carry.toNat * 2 ^ 64 + (add64 a b cin).word.toNat
      = a.toNat + b.toNat + cin.toNat := by
  have ha := a.isLt
  have hb := b.isLt
  have hc := cin.toNat_le
  by_cases h : (a.toNat + b.toNat + cin.toNat) / 2 ^ 64 = 1
  · simp only [add64, h, decide_true, Bool.toNat_true, BitVec.toNat_ofNat]
    omega
  · simp only [add64, h, decide_false, Bool.toNat_false, BitVec.toNat_ofNat]
    omega

/-- R44: the difference word makes up for what was borrowed, written without a subtraction. -/
theorem sub64_equation (a b : Word) (bin : Bool) :
    (sub64 a b bin).word.toNat + b.toNat + bin.toNat
      = a.toNat + (sub64 a b bin).carry.toNat * 2 ^ 64 := by
  have ha := a.isLt
  have hb := b.isLt
  have hc := bin.toNat_le
  by_cases h : (a.toNat : Int) - (b.toNat : Int) - (bin.toNat : Int) < 0
  · simp only [sub64, h, decide_true, Bool.toNat_true, BitVec.toNat_ofNat]
    omega
  · simp only [sub64, h, decide_false, Bool.toNat_false, BitVec.toNat_ofNat]
    omega

/-- A carry is the comparison of its cell's exact sum with the weight of the carry. -/
theorem carry_eq_decide_le {c : Bool} {m r t : Nat} (hr : r < m) (h : c.toNat * m + r = t) :
    c = decide (m ≤ t) := by
  cases c <;> simp at h ⊢ <;> omega

/-- A borrow is the comparison of the minuend with what is taken from it. -/
theorem borrow_eq_decide_lt {c : Bool} {m r x y : Nat} (hr : r < m) (h : r + y = x + c.toNat * m) :
    c = decide (x < y) := by
  cases c <;> simp at h ⊢ <;> omega

theorem u128_nat_lt (v : U128) : v.nat < 2 ^ 128 := by
  have hh := v.high.isLt
  have hl := v.low.isLt
  simp only [U128.nat]
  omega

/-- A value is determined by its integer. -/
theorem valueOf_nat (v : U128) : valueOf v.nat = v := by
  obtain ⟨h, l⟩ := v
  have hl := l.isLt
  simp only [valueOf, U128.nat, U128.mk.injEq]
  constructor <;> apply BitVec.eq_of_toNat_eq <;> simp only [BitVec.toNat_ofNat] <;> omega

/-- R52: what ADC128 computes on integers. -/
theorem adc128_equation (a b : U128) :
    (adc128 a b).cHi.toNat * 2 ^ 128 + (adc128 a b).value.nat = a.nat + b.nat := by
  have lo := add64_equation a.low b.low false
  have hi := add64_equation a.high b.high (add64 a.low b.low false).carry
  simp only [adc128, adc128With, arithmeticCells, ChainOut.value, U128.nat, Bool.toNat_false] at *
  linarith

/-- R58: what SBB128 computes on integers, written without a subtraction. -/
theorem sbb128_equation (a b : U128) :
    (sbb128 a b).value.nat + b.nat = a.nat + (sbb128 a b).cHi.toNat * 2 ^ 128 := by
  have lo := sub64_equation a.low b.low false
  have hi := sub64_equation a.high b.high (sub64 a.low b.low false).carry
  simp only [sbb128, sbb128With, arithmeticCells, ChainOut.value, U128.nat, Bool.toNat_false] at *
  linarith

theorem adc128_cLo (a b : U128) :
    (adc128 a b).cLo = decide (2 ^ 64 ≤ a.low.toNat + b.low.toNat) :=
  carry_eq_decide_le (add64 a.low b.low false).word.isLt (add64_equation a.low b.low false)

theorem sbb128_cLo (a b : U128) : (sbb128 a b).cLo = decide (a.low.toNat < b.low.toNat) :=
  borrow_eq_decide_lt (sub64 a.low b.low false).word.isLt (sub64_equation a.low b.low false)

theorem adc128_cHi (a b : U128) : (adc128 a b).cHi = decide (2 ^ 128 ≤ a.nat + b.nat) :=
  carry_eq_decide_le (u128_nat_lt _) (adc128_equation a b)

theorem sbb128_cHi (a b : U128) : (sbb128 a b).cHi = decide (a.nat < b.nat) :=
  borrow_eq_decide_lt (u128_nat_lt _) (sbb128_equation a b)

/-- Without a carry out the chain's words are the exact sum. -/
theorem adc128_value_of_fits {a b : U128} (h : (adc128 a b).cHi = false) :
    (adc128 a b).value = valueOf (a.nat + b.nat) := by
  have e := adc128_equation a b
  simp only [h, Bool.toNat_false, Nat.zero_mul, Nat.zero_add] at e
  rw [← e, valueOf_nat]

/-- Without a borrow out the chain's words are the exact difference. -/
theorem sbb128_value_of_fits {a b : U128} (h : (sbb128 a b).cHi = false) :
    (sbb128 a b).value = valueOf (a.nat - b.nat) := by
  have e := sbb128_equation a b
  simp only [h, Bool.toNat_false, Nat.zero_mul, Nat.add_zero] at e
  rw [← e, Nat.add_sub_cancel, valueOf_nat]

/-! ## What an accepted request does -/

/-- The exact outcome of ADD, read off the chain: R50's fault condition on integers is the carry out. -/
theorem exactOutcome_add (a b : U128) :
    exactOutcome (.add a b) =
      if (adc128 a b).cHi then .fault .arithmeticOverflow .add
      else .ok (adc128 a b).value (adc128 a b).cLo := by
  cases h : (adc128 a b).cHi with
  | true => simpa [exactOutcome, adc128_cHi] using h
  | false =>
    have hv := adc128_value_of_fits h
    rw [adc128_cHi, decide_eq_false_iff_not] at h
    rw [exactOutcome, if_neg h, ← hv, ← adc128_cLo]
    rfl

/-- The exact outcome of SUB, read off the chain: R56's fault condition on integers is the borrow out. -/
theorem exactOutcome_sub (a b : U128) :
    exactOutcome (.sub a b) =
      if (sbb128 a b).cHi then .fault .arithmeticOverflow .sub
      else .ok (sbb128 a b).value (sbb128 a b).cLo := by
  cases h : (sbb128 a b).cHi with
  | true => simpa [exactOutcome, sbb128_cHi] using h
  | false =>
    have hv := sbb128_value_of_fits h
    rw [sbb128_cHi, decide_eq_false_iff_not] at h
    rw [exactOutcome, if_neg h, ← hv, ← sbb128_cLo]
    rfl

theorem arithmeticCycle_of_running {s : State} (h : s.fsr.cause = 0#2) (op : Op) (r : ChainOut) :
    s.arithmeticCycle op r =
      if ovfdet op.code r.cHi then s.takeFault .arithmeticOverflow op r.cLo r.cHi
      else s.deliver r := by
  simp [State.arithmeticCycle, h]

theorem reservedCycle_of_running {s : State} (h : s.fsr.cause = 0#2) (op : Op) :
    s.reservedCycle op = s.takeFault .reservedOperation op false false := by
  simp [State.reservedCycle, h]

/-- A halted unit turns every request away (R17). -/
theorem exec_of_halted (i : Instr) {s : State} (h : s.fsr.cause ≠ 0#2) :
    exec i s = .next s.quietCycle := by
  rcases exec_cases i s with ⟨h0, -⟩ | ⟨h0, -⟩ | ⟨h0, -⟩ | ⟨-, he⟩
  · exact absurd h0 h
  · exact absurd h0 h
  · exact absurd h0 h
  · exact he

/-- An accepted request is one update of the state, the same in every running state, and the outcome that update
records is the exact one. -/
def AcceptedExactly (i : Instr) : Prop :=
  (∃ r : ChainOut, r.cHi = false ∧ exactOutcome i = .ok r.value r.cLo ∧
      ∀ s : State, s.fsr.cause = 0#2 → exec i s = .next (s.deliver r)) ∨
    ∃ k cLo cHi, exactOutcome i = .fault k i.op ∧
      ∀ s : State, s.fsr.cause = 0#2 → exec i s = .next (s.takeFault k i.op cLo cHi)

/-- ADD and SUB: the chain's carry out decides between the two updates, as it decides the exact outcome. -/
theorem acceptedExactly_of_arithmetic {i : Instr} {r : ChainOut}
    (hovf : ovfdet i.op.code r.cHi = r.cHi)
    (hx : exactOutcome i = if r.cHi then .fault .arithmeticOverflow i.op else .ok r.value r.cLo)
    (he : ∀ s, exec i s = .next (s.arithmeticCycle i.op r)) : AcceptedExactly i := by
  cases hc : r.cHi with
  | false => exact .inl ⟨r, hc, by simpa [hc] using hx, fun s h => by
      rw [he, arithmeticCycle_of_running h, hovf, hc]; rfl⟩
  | true => exact .inr ⟨.arithmeticOverflow, r.cLo, r.cHi, by simpa [hc] using hx, fun s h => by
      rw [he, arithmeticCycle_of_running h, hovf, hc]; rfl⟩

/-- MUL and RSV3: always the reserved fault. -/
theorem acceptedExactly_of_reserved {i : Instr} (hx : exactOutcome i = .fault .reservedOperation i.op)
    (he : ∀ s, exec i s = .next (s.reservedCycle i.op)) : AcceptedExactly i :=
  .inr ⟨.reservedOperation, false, false, hx, fun s h => by rw [he, reservedCycle_of_running h]⟩

theorem acceptedExactly (i : Instr) : AcceptedExactly i := by
  cases i with
  | add a b => exact acceptedExactly_of_arithmetic (ovfdet_add _) (exactOutcome_add a b) fun _ => rfl
  | sub a b => exact acceptedExactly_of_arithmetic (ovfdet_sub _) (exactOutcome_sub a b) fun _ => rfl
  | mul a b => exact acceptedExactly_of_reserved rfl fun _ => rfl
  | rsv3 a b => exact acceptedExactly_of_reserved rfl fun _ => rfl

/-! ## The reference step -/

theorem referenceStep_of_halted {f : Fsr} (h : f.cause ≠ 0#2) (i : Instr) :
    referenceStep f i = .notAccepted := by
  simp [referenceStep, h]

theorem referenceStep_of_ok {f : Fsr} {i : Instr} {v : U128} {c : Bool} (h : f.cause = 0#2)
    (ho : exactOutcome i = .ok v c) : referenceStep f i = .ok v c := by
  simp [referenceStep, h, ho]

theorem referenceStep_of_fault {f : Fsr} {i : Instr} {k : Cause} {op : Op} (h : f.cause = 0#2)
    (ho : exactOutcome i = .fault k op) : referenceStep f i = .fault k op := by
  simp [referenceStep, h, ho]

/-- Settles O9: a halted unit is the reference step's `notAccepted`; in a running one the update that `exec` makes
records the exact outcome (`acceptedExactly`). -/
theorem execMeetsTheReferenceStep : Obligations.ExecMeetsTheReferenceStep := by
  intro i s
  by_cases h : s.fsr.cause = 0#2
  · rcases acceptedExactly i with ⟨r, -, ho, he⟩ | ⟨k, cLo, cHi, ho, he⟩
    · refine ⟨s.deliver r, he s h, ?_⟩
      simp [referenceStep_of_ok h ho, fsrAfter, recorded, State.inputsLeft]
    · refine ⟨s.takeFault k i.op cLo cHi, he s h, ?_⟩
      simp [referenceStep_of_fault h ho, fsrAfter, recorded, State.inputsLeft]
  · refine ⟨s.quietCycle, exec_of_halted i h, ?_⟩
    simp [referenceStep_of_halted h, fsrAfter, recorded, State.inputsLeft]

/-! ## Two states with the same `FSR` -/

theorem deliver_ports_congr {s s' : State} (h : s.fsr = s'.fsr) (r : ChainOut) :
    (s.deliver r).ports = (s'.deliver r).ports := by
  simp [State.deliver, h]

theorem takeFault_ports_congr {s s' : State} (h : s.fsr = s'.fsr) (k : Cause) (op : Op) (cLo cHi : Bool) :
    (s.takeFault k op cLo cHi).ports = (s'.takeFault k op cLo cHi).ports := by
  simp [State.takeFault, h]

/-- Settles O42: both states make the same update, and what it leaves in `FSR`, on the ports and at the end of the
record is a function of `FSR`. -/
theorem outcomeDependsOnFsrAlone : Obligations.OutcomeDependsOnFsrAlone := by
  intro i s s' hf
  by_cases h : s.fsr.cause = 0#2
  · have h' : s'.fsr.cause = 0#2 := hf ▸ h
    rcases acceptedExactly i with ⟨r, -, -, he⟩ | ⟨k, cLo, cHi, -, he⟩
    · exact ⟨s.deliver r, s'.deliver r, [.ok r.value r.cLo], he s h, he s' h', hf,
        deliver_ports_congr hf r, rfl, rfl⟩
    · exact ⟨s.takeFault k i.op cLo cHi, s'.takeFault k i.op cLo cHi, [.fault k i.op], he s h, he s' h',
        rfl, takeFault_ports_congr hf k i.op cLo cHi, rfl, rfl⟩
  · have h' : s'.fsr.cause ≠ 0#2 := hf ▸ h
    exact ⟨s.quietCycle, s'.quietCycle, [], exec_of_halted i h, exec_of_halted i h', hf,
      by simp [hf], by simp, by simp⟩

/-! ## Runs of presented requests -/

/-- The decoder reads a request back from its word (R30). -/
@[simp] theorem decode_encode (i : Instr) : decode (encode i) = i := by
  cases i <;> simp [decode, encode, Instr.op, Instr.left, Instr.right, Op.instr]

/-- The ports of a presented request hold that request (R30, R118). -/
@[simp] theorem ofInstr_instr (i : Instr) : (Pins.ofInstr i).instr = i := by
  have hw : (Pins.ofInstr i).instr = decode (encode i) := by
    simp [Pins.instr, Pins.req, Pins.ofInstr, Pins.ofReq, decode]
  rw [hw, decode_encode]

/-- A cycle in which a request is presented is `exec` of that request. -/
theorem step_of_ofInstr {s : State} {i : Instr} {rest : List Pins} (h : s.inputs = Pins.ofInstr i :: rest) :
    step s = exec i s := by
  have hp := pinsNow_of_cons h
  rcases step_cases s with ⟨hr, -⟩ | ⟨-, -, he⟩ | ⟨-, hv, -⟩
  · rw [hp] at hr
    exact absurd hr (by simp [Pins.ofInstr, Pins.ofReq])
  · rw [he, hp, ofInstr_instr]
  · rw [hp] at hv
    exact absurd hv (by simp [Pins.ofInstr, Pins.ofReq])

/-- A run over presented requests meets the reference run, whatever state holds them as its coming inputs. -/
theorem run_meets_referenceRun (reqs : List Instr) (s : State) (h : s.inputs = reqs.map Pins.ofInstr) :
    ∃ t, Sys2Proof.core.run reqs.length s = .next t ∧ t.fsr = (referenceRun s.fsr reqs).1 ∧
      t.responses = s.responses ++ (referenceRun s.fsr reqs).2 ∧ t.inputs = [] := by
  induction reqs generalizing s with
  | nil => exact ⟨s, rfl, rfl, by simp [referenceRun], h⟩
  | cons i rest ih =>
    obtain ⟨s', he, hfsr, hresp, hin⟩ := execMeetsTheReferenceStep i s
    have hrest : s'.inputs = rest.map Pins.ofInstr := by rw [hin, h]; rfl
    obtain ⟨t, hrun, hfsr', hresp', hin'⟩ := ih s' hrest
    refine ⟨t, ?_, ?_, ?_, hin'⟩
    · exact (core_run_succ ((step_of_ofInstr h).trans he)).trans hrun
    · rw [hfsr', hfsr]; rfl
    · rw [hresp', hresp, hfsr, List.append_assoc]; rfl

/-- Settles O48, by induction on the requests with O9 at each step. -/
theorem runMeetsTheReferenceRun : Obligations.RunMeetsTheReferenceRun := by
  intro reqs s
  exact run_meets_referenceRun reqs { s with inputs := reqs.map Pins.ofInstr } rfl

end Sys2Proof.Machine

/-! ## The cycles of the unit, and what each leaves of the invariant -/

namespace Sys2Proof.Machine

open Sys2Proof.Safety

/-! ### The ports of each kind of cycle, in the spec's terms -/

/-- R34: the ports of a cycle that accepts nothing. -/
theorem quietPorts_eq_portsSilent (rst : Bool) (f : Fsr) : quietPorts rst f = portsSilent rst f := rfl

/-- R34: the ports of a cycle that delivers a result without a carry out. -/
theorem deliver_ports_of_running {s : State} {r : ChainOut} (h : s.fsr.cause = 0#2) (hc : r.cHi = false) :
    (s.deliver r).ports = portsOk r.value r.cLo s.fsr := by
  simp [State.deliver, quietPorts, portsOk, ChainOut.value, running_of_zero h, h, hc]

/-- R34: the ports of a cycle that takes a fault still show `FSR` as it was. -/
theorem takeFault_ports_of_running {s : State} (h : s.fsr.cause = 0#2) (k : Cause) (op : Op) (cLo cHi : Bool) :
    (s.takeFault k op cLo cHi).ports = portsFault cLo cHi s.fsr := by
  simp [State.takeFault, quietPorts, portsFault, running_of_zero h, h]

theorem portsSane_portsSilent (rst : Bool) (f : Fsr) : PortsSane (portsSilent rst f) := by
  simp +contextual [PortsSane, portsSilent]

theorem portsSane_portsOk (v : U128) (cLo : Bool) (f : Fsr) : PortsSane (portsOk v cLo f) := by
  simp [PortsSane, portsOk]

theorem portsSane_portsFault (cLo cHi : Bool) (f : Fsr) : PortsSane (portsFault cLo cHi f) := by
  simp [PortsSane, portsFault]

/-! ### What one step can do -/

/-- The four kinds of cycle: reset, an accepted request that ends `Ok`, one that faults, and a cycle that accepts
nothing. -/
inductive Cycle (s : State) : State → Prop
  | reset (hrst : s.pinsNow.rst = true) : Cycle s s.resetCycle
  | deliver (r : ChainOut) (hrun : s.fsr.cause = 0#2) (hcarry : r.cHi = false) : Cycle s (s.deliver r)
  | takeFault (k : Cause) (op : Op) (cLo cHi : Bool) (hrst : s.pinsNow.rst = false)
      (hvalid : s.pinsNow.reqValid = true) (hrun : s.fsr.cause = 0#2)
      (hout : exactOutcome s.pinsNow.instr = .fault k op) : Cycle s (s.takeFault k op cLo cHi)
  | quiet : Cycle s s.quietCycle

/-- A step always completes, and it is one of the four cycles. -/
theorem step_completes_as_cycle (s : State) : ∃ t, step s = .next t ∧ Cycle s t := by
  rcases step_cases s with ⟨hrst, he⟩ | ⟨hrst, hvalid, he⟩ | ⟨-, -, he⟩
  · exact ⟨_, he, .reset hrst⟩
  · by_cases hrun : s.fsr.cause = 0#2
    · rcases acceptedExactly s.pinsNow.instr with ⟨r, hcarry, -, hx⟩ | ⟨k, cLo, cHi, hout, hx⟩
      · exact ⟨_, he.trans (hx s hrun), .deliver r hrun hcarry⟩
      · exact ⟨_, he.trans (hx s hrun), .takeFault k _ cLo cHi hrst hvalid hrun hout⟩
    · exact ⟨_, he.trans (exec_of_halted _ hrun), .quiet⟩
  · exact ⟨_, he, .quiet⟩

theorem cycle_of_step {s t : State} (h : step s = .next t) : Cycle s t := by
  obtain ⟨u, hu, hc⟩ := step_completes_as_cycle s
  obtain rfl : u = t := by simpa [hu] using h
  exact hc

/-! ### `FSR` stays legal -/

theorem fsrLegal_clear : FsrLegal Fsr.clear := by
  unfold FsrLegal
  decide

/-- The pair a fault writes is legal: the cause of an outcome fits its operation (R16, R90). -/
theorem fsrLegal_of_exactOutcome_fault {i : Instr} {k : Cause} {op : Op} (h : exactOutcome i = .fault k op) :
    FsrLegal { cause := k.code, fop := op.code } := by
  have hpair : (k = .arithmeticOverflow ∧ (op = .add ∨ op = .sub)) ∨
      (k = .reservedOperation ∧ (op = .mul ∨ op = .rsv3)) := by
    cases i with
    | add a b => cases hc : (adc128 a b).cHi <;> simp_all [exactOutcome_add]
    | sub a b => cases hc : (sbb128 a b).cHi <;> simp_all [exactOutcome_sub]
    | mul a b => simp_all [exactOutcome]
    | rsv3 a b => simp_all [exactOutcome]
  unfold FsrLegal
  rcases hpair with ⟨rfl, rfl | rfl⟩ | ⟨rfl, rfl | rfl⟩ <;> decide

theorem fsrLegal_of_cycle {s t : State} (h : FsrLegal s.fsr) (hc : Cycle s t) : FsrLegal t.fsr := by
  cases hc with
  | reset => exact fsrLegal_clear
  | deliver => exact h
  | takeFault k op cLo cHi _ _ _ hout => exact fsrLegal_of_exactOutcome_fault hout
  | quiet => exact h

/-! ### The record stays in agreement with `FSR` -/

/-- In a running unit every recorded outcome is `Ok`: a recorded fault would stand in `FSR`. -/
theorem responses_isOk_of_running {s : State} (h : RecordAgrees s) (hrun : s.fsr.cause = 0#2) :
    ∀ r ∈ s.responses, isOk r = true := by
  rcases h with ⟨-, hok⟩ | ⟨k, op, earlier, -, -, hfsr⟩
  · exact hok
  · rw [hfsr] at hrun
    exact absurd hrun (code_ne_zero k)

theorem recordAgrees_of_cycle {s t : State} (h : RecordAgrees s) (hc : Cycle s t) : RecordAgrees t := by
  cases hc with
  | reset => exact .inl ⟨rfl, by simp⟩
  | deliver r hrun =>
    have hok := responses_isOk_of_running h hrun
    refine .inl ⟨hrun, fun x hx => ?_⟩
    rcases List.mem_append.mp hx with hold | hnew
    · exact hok x hold
    · obtain rfl := List.mem_singleton.mp hnew
      rfl
  | takeFault k op cLo cHi _ _ hrun =>
    exact .inr ⟨k, op, s.responses, rfl, responses_isOk_of_running h hrun, rfl⟩
  | quiet => exact h

/-! ### The ports stay sane and recorded, whatever they were before -/

theorem portsSane_of_cycle {s t : State} (hc : Cycle s t) : PortsSane t.ports := by
  cases hc with
  | reset => exact portsSane_portsSilent true s.fsr
  | deliver r hrun hcarry =>
    rw [deliver_ports_of_running hrun hcarry]
    exact portsSane_portsOk r.value r.cLo s.fsr
  | takeFault k op cLo cHi _ _ hrun =>
    rw [takeFault_ports_of_running hrun]
    exact portsSane_portsFault cLo cHi s.fsr
  | quiet => exact portsSane_portsSilent false s.fsr

theorem portsRecorded_of_silent {s : State} {rst : Bool} {f : Fsr} (h : s.ports = portsSilent rst f) :
    PortsRecorded s := by
  simp [PortsRecorded, h, portsSilent]

theorem portsRecorded_of_cycle {s t : State} (hc : Cycle s t) : PortsRecorded t := by
  cases hc with
  | reset => exact portsRecorded_of_silent (quietPorts_eq_portsSilent true s.fsr)
  | deliver r =>
    refine ⟨fun _ => ?_, fun hf => absurd hf (by simp)⟩
    rw [deliver_responses, List.getLast?_concat]
    rfl
  | takeFault k op cLo cHi =>
    exact ⟨fun hv => absurd hv (by simp), fun _ => ⟨k, op, by simp, rfl⟩⟩
  | quiet => exact portsRecorded_of_silent (quietPorts_eq_portsSilent false s.fsr)

/-! ### The invariant of the machine -/

theorem inv_of_cycle {s t : State} (h : Inv s) (hc : Cycle s t) : Inv t := by
  obtain ⟨hlegal, hrecord, -, -⟩ := h
  exact ⟨fsrLegal_of_cycle hlegal hc, recordAgrees_of_cycle hrecord hc, portsSane_of_cycle hc,
    portsRecorded_of_cycle hc⟩

/-- Settles O46: a step is one of the four cycles, and each keeps the four parts of the invariant. -/
theorem stepKeepsTheMachineInvariant : Obligations.StepKeepsTheMachineInvariant := by
  intro s hs
  obtain ⟨t, he, hc⟩ := step_completes_as_cycle s
  exact ⟨t, he, inv_of_cycle hs hc⟩

/-- Settles O45, with the legal pair that reset or a fault writes. -/
theorem stepKeepsFsrLegal : Obligations.StepKeepsFsrLegal :=
  ⟨fsrLegal_clear, fun _ _ hs he => fsrLegal_of_cycle hs (cycle_of_step he)⟩

/-- Settles O44: no request is on the ports of `State.reset` and none is in its record. -/
theorem resetMeetsTheMachineInvariant : Obligations.ResetMeetsTheMachineInvariant := by
  have hports : State.reset.ports = portsSilent true Fsr.clear := by decide
  have hsane : PortsSane State.reset.ports := hports ▸ portsSane_portsSilent true Fsr.clear
  exact ⟨fsrLegal_clear, .inl ⟨rfl, by simp [State.reset]⟩, hsane, portsRecorded_of_silent hports⟩

/-- Settles O40: of the four cycles only reset and a fault write `FSR`. -/
theorem fsrChangesOnlyByFaultOrReset : Obligations.FsrChangesOnlyByFaultOrReset := by
  intro s t he hne
  cases cycle_of_step he with
  | reset hrst => exact .inl ⟨hrst, rfl⟩
  | deliver => exact absurd rfl hne
  | takeFault k op cLo cHi hrst hvalid hrun hout => exact .inr ⟨hrst, hvalid, hrun, k, op, hout, rfl⟩
  | quiet => exact absurd rfl hne

/-! ## The halted unit -/

theorem turnedAway_of_halted (i : Instr) {s : State} (h : s.fsr.cause ≠ 0#2) : TurnedAway i s :=
  ⟨s.quietCycle, exec_of_halted i h, quietPorts_eq_portsSilent false s.fsr, rfl⟩

/-- R17: without reset a halted unit accepts nothing, whether the host presents a request or not. -/
theorem step_of_halted {s : State} (h : s.fsr.cause ≠ 0#2) (hrst : s.pinsNow.rst = false) :
    step s = .next s.quietCycle := by
  rcases step_cases s with ⟨hr, -⟩ | ⟨-, -, he⟩ | ⟨-, -, he⟩
  · exact absurd hr (by simp [hrst])
  · exact he.trans (exec_of_halted _ h)
  · exact he

theorem step_of_reset {s : State} (hrst : s.pinsNow.rst = true) : step s = .next s.resetCycle := by
  simp [step, hrst]

/-- A list of inputs without reset gives a cycle without reset, also when it has run out. -/
theorem pinsNow_rst_of_inputs {s : State} (h : ∀ p ∈ s.inputs, p.rst = false) : s.pinsNow.rst = false := by
  cases hin : s.inputs with
  | nil => rw [pinsNow_of_nil hin]; rfl
  | cons p rest => rw [pinsNow_of_cons hin]; exact h p (by simp [hin])

/-- Settles O35, from what a halted unit does with a request (`exec_of_halted`) and in a cycle (`step_of_halted`). -/
theorem haltedUnitAcceptsNothing : Obligations.HaltedUnitAcceptsNothing := by
  intro s h
  refine ⟨fun i => ⟨turnedAway_of_halted i h, referenceStep_of_halted h i⟩, fun hrst => ?_, fun hrst => ?_⟩
  · exact ⟨s.quietCycle, step_of_halted h hrst, rfl, rfl, quietPorts_eq_portsSilent false s.fsr⟩
  · exact ⟨s.resetCycle, step_of_reset hrst, rfl⟩

/-- Settles O36, by induction on the number of cycles: a halted cycle leaves `FSR` and the record, and its remaining
inputs hold no reset either. -/
theorem haltLastsUntilReset : Obligations.HaltLastsUntilReset := by
  intro k
  induction k with
  | zero => exact fun s _ _ => ⟨s, rfl, rfl, rfl⟩
  | succ k ih =>
    intro s h hin
    have hstep := step_of_halted h (pinsNow_rst_of_inputs hin)
    have hleft : ∀ p ∈ s.quietCycle.inputs, p.rst = false := fun p hp => hin p (List.mem_of_mem_drop hp)
    obtain ⟨t, hrun, hfsr, hresp⟩ := ih s.quietCycle h hleft
    exact ⟨t, (core_run_succ hstep).trans hrun, hfsr, hresp⟩

/-! ## A request presented twice -/

/-- Settles O41: of the updates a request can make only a result shows `rsp_valid`, and it leaves `FSR`, on which alone
the next one depends. -/
theorem okRequestMayBeRepeated : Obligations.OkRequestMayBeRepeated := by
  intro i s t he hvalid
  by_cases hrun : s.fsr.cause = 0#2
  · rcases acceptedExactly i with ⟨r, -, -, hx⟩ | ⟨k, cLo, cHi, -, hx⟩
    · obtain rfl : s.deliver r = t := by simpa [hx s hrun] using he
      exact ⟨rfl, hrun, (s.deliver r).deliver r, hx _ hrun, deliver_ports_congr rfl r, rfl⟩
    · obtain rfl : s.takeFault k i.op cLo cHi = t := by simpa [hx s hrun] using he
      simp at hvalid
  · obtain rfl : s.quietCycle = t := by simpa [exec_of_halted i hrun] using he
    simp [quietPorts] at hvalid

/-! ## An accepted request, as the port equations see it -/

/-- The next state of an accepted request by R34: `FSR` and the ports by the equations, one outcome and one cycle of
input by the model's record. -/
def acceptedNext (p : Pins) (s : State) : State :=
  { fsr := edgeFsr p s.fsr
    ports := portEquations p s.fsr
    inputs := s.inputs.drop 1
    responses := s.responses ++ [exactOutcome p.instr] }

/-- The request on the ports, by its operation code and its operands (R30, R31). -/
theorem pins_instr_eq (p : Pins) : p.instr = (Op.ofCode p.op).instr p.left p.right := by
  simp [Pins.instr, Pins.req, decode, Pins.left, Pins.right]

theorem accept_iff {p : Pins} {f : Fsr} :
    accept p f = true ↔ p.reqValid = true ∧ f.cause = 0#2 ∧ p.rst = false := by
  simp [accept]

theorem selected_of_add {p : Pins} (hop : p.op = Op.add.code) : selected p = adc128 p.left p.right := by
  simp [selected, hop, Op.code]

theorem selected_of_sub {p : Pins} (hop : p.op = Op.sub.code) : selected p = sbb128 p.left p.right := by
  simp [selected, hop, Op.code]

/-- R34's equations for an accepted ADD or SUB without a carry out. -/
theorem portEquations_of_ok {p : Pins} {f : Fsr} (hacc : accept p f = true) (himpl : implemented p.op = true)
    (hc : (selected p).cHi = false) :
    portEquations p f = portsOk (selected p).value (selected p).cLo f ∧ edgeFsr p f = f := by
  obtain ⟨-, hrun, hrst⟩ := accept_iff.mp hacc
  have hbit : p.op[1] = false := by simpa [implemented] using himpl
  simp [portEquations, edgeFsr, rspValid, rspFault, overflow, portsOk, ChainOut.value, hacc, hrun, hrst, hbit, hc]

/-- R34's equations for an accepted ADD or SUB with a carry out. -/
theorem portEquations_of_overflow {p : Pins} {f : Fsr} (hacc : accept p f = true) (himpl : implemented p.op = true)
    (hc : (selected p).cHi = true) :
    portEquations p f = portsFault (selected p).cLo true f ∧ edgeFsr p f = { cause := 1#2, fop := p.op } := by
  obtain ⟨-, hrun, hrst⟩ := accept_iff.mp hacc
  have hbit : p.op[1] = false := by simpa [implemented] using himpl
  simp [portEquations, edgeFsr, rspValid, rspFault, overflow, portsFault, hacc, hrun, hrst, hbit, hc]

/-- R34's equations for an accepted request with a reserved code. -/
theorem portEquations_of_reserved {p : Pins} {f : Fsr} (hacc : accept p f = true) (himpl : implemented p.op = false) :
    portEquations p f = portsFault false false f ∧ edgeFsr p f = { cause := 2#2, fop := p.op } := by
  obtain ⟨-, hrun, hrst⟩ := accept_iff.mp hacc
  have hbit : p.op[1] = true := by simpa [implemented] using himpl
  simp [portEquations, edgeFsr, rspValid, rspFault, overflow, portsFault, hacc, hrun, hrst, hbit]

theorem deliver_eq_acceptedNext {p : Pins} {s : State} {r : ChainOut} (hrun : s.fsr.cause = 0#2)
    (hcarry : r.cHi = false)
    (heq : portEquations p s.fsr = portsOk r.value r.cLo s.fsr ∧ edgeFsr p s.fsr = s.fsr)
    (hx : exactOutcome p.instr = .ok r.value r.cLo) : s.deliver r = acceptedNext p s := by
  obtain ⟨hports, hfsr⟩ := heq
  rw [acceptedNext, hports, hfsr, hx, ← deliver_ports_of_running hrun hcarry]
  rfl

theorem takeFault_eq_acceptedNext {p : Pins} {s : State} {k : Cause} {op : Op} {cLo cHi : Bool}
    (hrun : s.fsr.cause = 0#2)
    (heq : portEquations p s.fsr = portsFault cLo cHi s.fsr ∧ edgeFsr p s.fsr = { cause := k.code, fop := op.code })
    (hx : exactOutcome p.instr = .fault k op) : s.takeFault k op cLo cHi = acceptedNext p s := by
  obtain ⟨hports, hfsr⟩ := heq
  rw [acceptedNext, hports, hfsr, hx, ← takeFault_ports_of_running hrun k op]
  rfl

section Accepted

variable {p : Pins} {s : State} (hacc : accept p s.fsr = true)
include hacc

/-- ADD and SUB: the carry out of the selected chain decides between the two updates as it decides R34's equations. -/
theorem arithmeticCycle_selected {op : Op} (hop : p.op = op.code) (himpl : implemented op.code = true)
    (hx : exactOutcome p.instr =
      if (selected p).cHi then .fault .arithmeticOverflow op else .ok (selected p).value (selected p).cLo) :
    s.arithmeticCycle op (selected p) = acceptedNext p s := by
  obtain ⟨-, hrun, -⟩ := accept_iff.mp hacc
  have himpl' : implemented p.op = true := hop ▸ himpl
  rw [arithmeticCycle_of_running hrun]
  cases hc : (selected p).cHi with
  | false =>
    rw [hc] at hx
    simpa [ovfdet] using deliver_eq_acceptedNext hrun hc (portEquations_of_ok hacc himpl' hc) hx
  | true =>
    rw [hc] at hx
    have heq := portEquations_of_overflow hacc himpl' hc
    rw [hop] at heq
    simpa [ovfdet, himpl] using takeFault_eq_acceptedNext (k := .arithmeticOverflow) hrun heq hx

/-- MUL and RSV3: R34's equations give the fault with cause 2 and no carry. -/
theorem reservedCycle_selected {op : Op} (hop : p.op = op.code) (himpl : implemented op.code = false)
    (hx : exactOutcome p.instr = .fault .reservedOperation op) :
    s.reservedCycle op = acceptedNext p s := by
  obtain ⟨-, hrun, -⟩ := accept_iff.mp hacc
  have heq := portEquations_of_reserved hacc (hop ▸ himpl)
  rw [hop] at heq
  rw [reservedCycle_of_running hrun]
  exact takeFault_eq_acceptedNext hrun heq hx

/-- R34: an accepted request, whatever drives the ports, gives the next state of the port equations. -/
theorem exec_instr_of_accept : exec p.instr s = .next (acceptedNext p s) := by
  have hop : p.op = (Op.ofCode p.op).code := (code_ofCode p.op).symm
  have hi := pins_instr_eq p
  generalize Op.ofCode p.op = op at hop hi
  cases op with
  | add =>
    have hx := exactOutcome_add p.left p.right
    rw [← selected_of_add hop] at hx
    rw [← arithmeticCycle_selected hacc hop rfl (hi ▸ hx), hi, selected_of_add hop]
    rfl
  | sub =>
    have hx := exactOutcome_sub p.left p.right
    rw [← selected_of_sub hop] at hx
    rw [← arithmeticCycle_selected hacc hop rfl (hi ▸ hx), hi, selected_of_sub hop]
    rfl
  | mul => rw [← reservedCycle_selected hacc hop rfl (hi ▸ rfl), hi]; rfl
  | rsv3 => rw [← reservedCycle_selected hacc hop rfl (hi ▸ rfl), hi]; rfl

end Accepted

/-- Settles O28: presenting a request drives the ports with it. -/
theorem acceptedRequestsWholeNextState : Obligations.AcceptedRequestsWholeNextState := by
  intro i s hrun
  have hacc : accept (Pins.ofInstr i) s.fsr = true := accept_iff.mpr ⟨rfl, hrun, rfl⟩
  simpa [acceptedNext] using exec_instr_of_accept hacc

end Sys2Proof.Machine

/-! ## Requests in either order -/

namespace Sys2Proof.Machine

open Sys2Proof.Safety

/-- R11: a request that ends `Ok` ends the same way in every state with the same `FSR`. -/
theorem endsOk_of_fsr_eq {i : Instr} {s s' : State} {v : U128} {c : Bool} (hf : s'.fsr = s.fsr)
    (h : EndsOk i s v c) : EndsOk i s' v c := by
  obtain ⟨t, he, hports, hfsr⟩ := h
  obtain ⟨u, u', -, hu, hu', hfsr', hports', -, -⟩ := outcomeDependsOnFsrAlone i s s' hf.symm
  obtain rfl : t = u := by simpa [he] using hu
  refine ⟨u', hu', ?_, ?_⟩
  · rw [← hports', hports, hf]
  · rw [← hfsr', hfsr, hf]

/-- R26: a request that ends `Ok` leaves the outcome of an `Ok` request after it as it was, since it leaves `FSR`
(R12). -/
theorem endsOk_after_endsOk {i j : Instr} {s : State} {v w : U128} {c d : Bool} (hi : EndsOk i s v c)
    (hj : EndsOk j s w d) : ∃ t, exec i s = .next t ∧ EndsOk j t w d := by
  obtain ⟨t, he, -, hfsr⟩ := hi
  exact ⟨t, he, endsOk_of_fsr_eq hfsr hj⟩

/-- Settles O43: each order is the same fact about a request after an `Ok` one, with the two exchanged. -/
theorem okRequestsDoNotDependOnTheirOrder : Obligations.OkRequestsDoNotDependOnTheirOrder := by
  intro i j s v w c d hi hj
  exact ⟨endsOk_after_endsOk hi hj, endsOk_after_endsOk hj hi⟩

end Sys2Proof.Machine

/-! ## The request format -/

namespace Sys2Proof.Machine

open Sys2Proof.Safety

@[simp] theorem instr_op (op : Op) (a b : U128) : (op.instr a b).op = op := by cases op <;> rfl
@[simp] theorem instr_left (op : Op) (a b : U128) : (op.instr a b).left = a := by cases op <;> rfl
@[simp] theorem instr_right (op : Op) (a b : U128) : (op.instr a b).right = b := by cases op <;> rfl

/-- R30: the five fields lie side by side and cover the word. -/
@[simp] theorem reqOf_fields (r : BitVec 258) : reqOf (reqOp r) (reqAHi r) (reqALo r) (reqBHi r) (reqBLo r) = r := by
  have join {hi lo m n : Nat} (h : hi = lo + n) :
      r.extractLsb' hi m ++ r.extractLsb' lo n = r.extractLsb' lo (m + n) :=
    BitVec.extractLsb'_append_extractLsb'_eq_extractLsb' h
  rw [reqOf, reqOp, reqAHi, reqALo, reqBHi, reqBLo, join (rfl : 256 = 192 + 64), join (rfl : 192 = 128 + 64),
    join (rfl : 128 = 64 + 64)]
  exact (join (rfl : 64 = 0 + 64)).trans BitVec.extractLsb'_eq_self

theorem decode_op (r : BitVec 258) : (decode r).op = Op.ofCode (reqOp r) := by simp [decode]

/-- R31: the `op` field of a request's word is the code of its operation. -/
@[simp] theorem reqOp_encode (i : Instr) : reqOp (encode i) = i.op.code := by simp [encode]

/-- Settles O3: decoding keeps each field of the word, and the fields cover it (`reqOf_fields`). -/
theorem encodeOfDecodeIsTheWord : Obligations.EncodeOfDecodeIsTheWord := by
  intro r
  simp [encode, decode]

/-- Settles O5: the decoder selects the operation by the code alone, and the tests agree on each of the four codes. -/
theorem operationCodes : Obligations.OperationCodes := by
  have htests : ∀ c : BitVec 2,
      (c.getLsbD 1 = false ↔ Op.ofCode c = .add ∨ Op.ofCode c = .sub) ∧
        (c.getLsbD 1 = false → (c.getLsbD 0 = false ↔ Op.ofCode c = .add)) := by decide
  refine ⟨fun a b => ⟨reqOp_encode _, reqOp_encode _, reqOp_encode _, reqOp_encode _⟩, fun r => ?_⟩
  rw [decode_op]
  exact htests (reqOp r)

/-! ### The decoder of table words -/

/-- No bit at or above position `n`, as a bound. -/
theorem shiftRight_eq_zero_iff_lt (w n : Nat) : w >>> n = 0 ↔ w < 2 ^ n := by
  rw [Nat.shiftRight_eq_div_pow, Nat.div_eq_zero_iff_lt (Nat.two_pow_pos n)]

/-- A word within its stated bits and within the format is read by `decode`; every other word is refused. -/
theorem decodeTableWord_eq (nbits w : Nat) :
    decodeTableWord nbits w =
      if w < 2 ^ nbits ∧ w < 2 ^ 258 then some (decode (BitVec.ofNat 258 w)) else none := by
  simp only [← shiftRight_eq_zero_iff_lt, decodeTableWord, decodeBits]
  by_cases hn : w >>> nbits = 0
  · by_cases hf : w >>> 258 = 0 <;> simp [hn, hf]
  · simp [hn]

/-- The word of the format whose number a table word is decodes as it does. -/
theorem decodeTableWord_toNat (r : BitVec 258) : decodeTableWord 258 r.toNat = some (decode r) := by
  rw [decodeTableWord_eq, if_pos ⟨r.isLt, r.isLt⟩, BitVec.ofNat_toNat, BitVec.setWidth_eq]

theorem decode_of_decodeTableWord {nbits w : Nat} {i : Instr} (h : decodeTableWord nbits w = some i) :
    decode (BitVec.ofNat 258 w) = i := by
  rw [decodeTableWord_eq] at h
  split at h
  · exact Option.some.inj h
  · cases h

/-- Settles O2: the round trip of `decode_encode`, also through the number of the word. -/
theorem decodeOfEncodeIsTheRequest : Obligations.DecodeOfEncodeIsTheRequest := by
  intro i
  have hwf : i.wellFormed = true := by cases i <;> rfl
  exact ⟨hwf, decode_encode i, by rw [decodeTableWord_toNat, decode_encode]⟩

/-- Settles O4: the two bounds of `decodeTableWord_eq`. -/
theorem onlyWordsAboveTheFormatAreRejected : Obligations.OnlyWordsAboveTheFormatAreRejected := by
  intro nbits w
  rw [decodeTableWord_eq, requestWordFits, beq_iff_eq, shiftRight_eq_zero_iff_lt, ← not_lt, ← not_lt]
  by_cases h : w < 2 ^ nbits ∧ w < 2 ^ 258
  · rw [if_pos h]
    exact ⟨by simp [h], fun _ _ => ⟨_, rfl⟩⟩
  · rw [if_neg h]
    exact ⟨by tauto, fun hn hf => absurd ⟨hn, hf⟩ h⟩

/-- Settles O1, by running the decoder on each word. -/
theorem requestWordsReadBack : Obligations.RequestWordsReadBack := by
  unfold Obligations.RequestWordsReadBack
  decide

/-! ## A step, by the port equations -/

theorem accept_eq_false_of_rst {p : Pins} {f : Fsr} (h : p.rst = true) : accept p f = false := by
  simp [accept, h]

/-- R34: without an accepted request every response port is 0. -/
theorem portEquations_of_not_accept {p : Pins} {f : Fsr} (h : accept p f = false) :
    portEquations p f = portsSilent p.rst f := by
  simp [portEquations, rspValid, rspFault, h, portsSilent]

theorem edgeFsr_of_rst {p : Pins} (f : Fsr) (h : p.rst = true) : edgeFsr p f = Fsr.clear := by
  simp [edgeFsr, h, Fsr.clear]

/-- R34: without reset and without an accepted request `FSR` stays. -/
theorem edgeFsr_of_not_accept {p : Pins} {f : Fsr} (hrst : p.rst = false) (h : accept p f = false) :
    edgeFsr p f = f := by
  simp [edgeFsr, rspFault, hrst, h]

/-- R34: a result and a fault are the two sides of `ovf` and of `impl`. -/
theorem not_rspValid_and_rspFault (p : Pins) (f : Fsr) : ¬(rspValid p f = true ∧ rspFault p f = true) := by
  rintro ⟨hv, hf⟩
  simp [rspValid] at hv
  simp [rspFault, hv] at hf

/-- The three kinds of cycle by R34's `accept`, each with its whole next state. -/
theorem step_cases_accept (s : State) :
    (s.pinsNow.rst = true ∧ step s = .next s.resetCycle) ∨
      (s.pinsNow.rst = false ∧ accept s.pinsNow s.fsr = true ∧ step s = .next (acceptedNext s.pinsNow s)) ∨
      (s.pinsNow.rst = false ∧ accept s.pinsNow s.fsr = false ∧ step s = .next s.quietCycle) := by
  rcases step_cases s with ⟨hrst, he⟩ | ⟨hrst, hvalid, he⟩ | ⟨hrst, hvalid, he⟩
  · exact .inl ⟨hrst, he⟩
  · by_cases hrun : s.fsr.cause = 0#2
    · have hacc := accept_iff.mpr ⟨hvalid, hrun, hrst⟩
      exact .inr (.inl ⟨hrst, hacc, he.trans (exec_instr_of_accept hacc)⟩)
    · exact .inr (.inr ⟨hrst, by simp [accept, hrun], step_of_halted hrun hrst⟩)
  · exact .inr (.inr ⟨hrst, by simp [accept, hvalid], he⟩)

/-- Settles O8: an accepted request by `exec_instr_of_accept`; in reset and in a quiet cycle nothing is accepted. -/
theorem stepMeetsThePortEquations : Obligations.StepMeetsThePortEquations := by
  refine ⟨fun s => ?_, fun p f => ⟨not_rspValid_and_rspFault p f, portEquations_of_not_accept⟩⟩
  rcases step_cases_accept s with ⟨hrst, he⟩ | ⟨-, -, he⟩ | ⟨hrst, hacc, he⟩
  · refine ⟨s.resetCycle, he, ?_, (edgeFsr_of_rst s.fsr hrst).symm⟩
    rw [portEquations_of_not_accept (accept_eq_false_of_rst hrst), hrst]
    exact quietPorts_eq_portsSilent true s.fsr
  · exact ⟨acceptedNext s.pinsNow s, he, rfl, rfl⟩
  · refine ⟨s.quietCycle, he, ?_, (edgeFsr_of_not_accept hrst hacc).symm⟩
    rw [portEquations_of_not_accept hacc, hrst]
    exact quietPorts_eq_portsSilent false s.fsr

/-- Settles O10: each of the three kinds of cycle uses one input and has its own effect on the record. -/
theorem stepRecordsWhatItAccepts : Obligations.StepRecordsWhatItAccepts := by
  intro s
  rcases step_cases_accept s with ⟨hrst, he⟩ | ⟨hrst, hacc, he⟩ | ⟨hrst, hacc, he⟩
  · exact ⟨s.resetCycle, he, rfl, by simp [hrst]⟩
  · exact ⟨acceptedNext s.pinsNow s, he, rfl, by simp [hrst, hacc, acceptedNext]⟩
  · exact ⟨s.quietCycle, he, rfl, by simp [hrst, hacc]⟩

/-! ### A presented request -/

theorem step_of_presented {s : State} (hrst : s.pinsNow.rst = false) (hvalid : s.pinsNow.reqValid = true) :
    step s = exec s.pinsNow.instr s := by
  simp [step, hrst, hvalid]

theorem inputs_of_step {s t : State} (h : step s = .next t) : t.inputs = s.inputs.drop 1 := by
  obtain ⟨u, hu, hin, -⟩ := stepRecordsWhatItAccepts s
  obtain rfl : u = t := by simpa [hu] using h
  exact hin

/-- Settles O6, with O10 for the inputs that are left. -/
theorem stepRunsThePresentedRequest : Obligations.StepRunsThePresentedRequest := by
  intro s p rest hin hrst hvalid
  have hp : s.pinsNow = p := pinsNow_of_cons hin
  subst hp
  exact ⟨step_of_presented hrst hvalid, fun t ht => by rw [inputs_of_step ht, hin]; rfl⟩

/-- The ports of a flat word hold the request it decodes to (R30). -/
@[simp] theorem ofReq_instr (r : BitVec 258) : (Pins.ofReq r).instr = decode r := by
  simp [Pins.instr, Pins.req, Pins.ofReq]

/-- Settles O7: the placed word is what `Pins.ofReq` puts on the ports of the next cycle. -/
theorem stepRunsTheFetchedWord : Obligations.StepRunsTheFetchedWord := by
  intro s nbits w i hi
  have hp : (s.withFetchWord nbits w).pinsNow = Pins.ofReq (BitVec.ofNat 258 w) := rfl
  have hstep := step_of_presented (s := s.withFetchWord nbits w) rfl rfl
  rw [hp, ofReq_instr, decode_of_decodeTableWord hi] at hstep
  exact ⟨hstep, withFetchWord_fsr s nbits w, withFetchWord_responses s nbits w⟩

/-! ## A script on a halted unit -/

theorem outcomeNow_quietCycle (s : State) : s.quietCycle.outcomeNow = none := by
  simp [State.outcomeNow, quietPorts]

theorem issueLine_of_left_none {l : ScriptLine} {r : ScriptRun} (h : operandValue r.kept l.left = none) :
    issueLine l r = .next { r with lines := r.lines ++ [.notFormed] } := by
  simp [issueLine, h]

theorem issueLine_of_right_none {l : ScriptLine} {r : ScriptRun} (h : operandValue r.kept l.right = none) :
    issueLine l r = .next { r with lines := r.lines ++ [.notFormed] } := by
  cases ha : operandValue r.kept l.left <;> simp [issueLine, ha, h]

/-- The request of a formed line uses up one quiet cycle of a halted unit. -/
theorem issueLine_of_formed_halted {l : ScriptLine} {r : ScriptRun} {a b : U128}
    (ha : operandValue r.kept l.left = some a) (hb : operandValue r.kept l.right = some b)
    (h : r.machine.fsr.cause ≠ 0#2) :
    issueLine l r =
      .next
        { machine := State.quietCycle { r.machine with inputs := [Pins.ofInstr (l.op.instr a b)] }
          kept := r.kept
          lines := r.lines ++ [.notAccepted] } := by
  have hstep := step_of_halted (s := { r.machine with inputs := [Pins.ofInstr (l.op.instr a b)] }) h rfl
  simp [issueLine, ha, hb, hstep, outcomeNow_quietCycle, keepResult, lineStatus]

/-- R37, R17: a line on a halted unit has no outcome, whether its request can be formed or not. -/
theorem issueLine_of_halted (l : ScriptLine) {r : ScriptRun} (h : r.machine.fsr.cause ≠ 0#2) :
    ∃ r' status, issueLine l r = .next r' ∧ r'.machine.fsr = r.machine.fsr ∧ r'.kept = r.kept ∧
      r'.lines = r.lines ++ [status] ∧ (status = .notAccepted ∨ status = .notFormed) := by
  cases ha : operandValue r.kept l.left with
  | none => exact ⟨_, .notFormed, issueLine_of_left_none ha, rfl, rfl, rfl, .inr rfl⟩
  | some a =>
    cases hb : operandValue r.kept l.right with
    | none => exact ⟨_, .notFormed, issueLine_of_right_none hb, rfl, rfl, rfl, .inr rfl⟩
    | some b => exact ⟨_, .notAccepted, issueLine_of_formed_halted ha hb h, rfl, rfl, rfl, .inl rfl⟩

/-- Settles O50, by induction on the lines: a line without an outcome leaves the unit halted for the rest. -/
theorem haltedScriptHasNoOutcomes : Obligations.HaltedScriptHasNoOutcomes := by
  intro script
  induction script with
  | nil => exact fun r _ => ⟨r, [], rfl, rfl, rfl, by simp, rfl, by simp⟩
  | cons l rest ih =>
    intro r h
    obtain ⟨r₁, status, he, hfsr₁, hkept₁, hlines₁, hstatus⟩ := issueLine_of_halted l h
    obtain ⟨r', added, hrun, hfsr, hkept, hlines, hlen, hadded⟩ := ih r₁ (hfsr₁ ▸ h)
    refine ⟨r', status :: added, by simp only [runScript, he, hrun], hfsr.trans hfsr₁, hkept.trans hkept₁, ?_,
      by simp [hlen], List.forall_mem_cons.mpr ⟨hstatus, hadded⟩⟩
    rw [hlines, hlines₁, List.append_assoc, List.singleton_append]

end Sys2Proof.Machine

/-! ## The equations of the cells -/

namespace Sys2Proof.Machine

theorem add64_carry (a b : Word) (cin : Bool) :
    (add64 a b cin).carry = decide (2 ^ 64 ≤ a.toNat + b.toNat + cin.toNat) :=
  carry_eq_decide_le (add64 a b cin).word.isLt (add64_equation a b cin)

theorem sub64_carry (a b : Word) (bin : Bool) :
    (sub64 a b bin).carry = decide (a.toNat < b.toNat + bin.toNat) :=
  borrow_eq_decide_lt (sub64 a b bin).word.isLt (by rw [← Nat.add_assoc, sub64_equation])

/-- R40: the equation determines both outputs, the carry first. -/
theorem eq_add64_of_equation {a b : Word} {cin : Bool} {r : CellOut}
    (h : r.carry.toNat * 2 ^ 64 + r.word.toNat = a.toNat + b.toNat + cin.toNat) : r = add64 a b cin := by
  have hcell := add64_equation a b cin
  have hcarry : r.carry = (add64 a b cin).carry := by
    rw [add64_carry, carry_eq_decide_le r.word.isLt h]
  rw [← hcarry, ← h] at hcell
  rw [CellOut.mk.injEq]
  exact ⟨BitVec.eq_of_toNat_eq (Nat.add_left_cancel hcell).symm, hcarry⟩

/-- R44: the equation determines both outputs, the borrow first. -/
theorem eq_sub64_of_equation {a b : Word} {bin : Bool} {r : CellOut}
    (h : r.word.toNat + b.toNat + bin.toNat = a.toNat + r.carry.toNat * 2 ^ 64) : r = sub64 a b bin := by
  have hcell := sub64_equation a b bin
  have hcarry : r.carry = (sub64 a b bin).carry := by
    rw [sub64_carry]
    exact borrow_eq_decide_lt r.word.isLt (by rw [← Nat.add_assoc, h])
  rw [← hcarry, ← h] at hcell
  rw [CellOut.mk.injEq]
  exact ⟨BitVec.eq_of_toNat_eq (Nat.add_right_cancel (Nat.add_right_cancel hcell)).symm, hcarry⟩

/-- Settles O11: the equation bounds the carry, and another pair that meets it has the same carry and word. -/
theorem addCellEquation : Obligations.AddCellEquation := by
  intro a b cin
  exact ⟨add64_equation a b cin, by rw [add64_carry, decide_eq_true_iff], fun _ => eq_add64_of_equation⟩

/-- Settles O12, from the equation without a subtraction. -/
theorem subCellEquation : Obligations.SubCellEquation := by
  intro a b bin
  refine ⟨?_, by rw [sub64_carry, decide_eq_true_iff], fun r h => eq_sub64_of_equation ?_⟩
  · have h := sub64_equation a b bin
    omega
  · omega

/-- Settles O18: each law compares or solves the equations of the cells. -/
theorem cellLaws : Obligations.CellLaws := by
  refine ⟨fun a b c => ?_, fun a => ⟨?_, ?_, ?_⟩, fun a b w d k h => ?_, fun a b c => ?_, fun a b w => ?_⟩
  · exact eq_add64_of_equation (by rw [add64_equation, Nat.add_comm a.toNat])
  · exact (eq_add64_of_equation (by simp)).symm
  · exact (eq_sub64_of_equation (by simp)).symm
  · exact (eq_sub64_of_equation (by simp)).symm
  · have hd := sub64_equation a b w
    rw [h] at hd
    exact (eq_add64_of_equation (by rw [hd, Nat.add_comm])).symm
  · rw [add64_carry, decide_eq_false_iff_not]
    omega
  · rw [sub64_carry, decide_eq_false_iff_not, Nat.not_lt]

end Sys2Proof.Machine

/-! ## The two-step and complement forms of the cells -/

namespace Sys2Proof.Machine

/-- The sum word is the truncated sum, whatever the carry. -/
theorem add64_word (a b : Word) (cin : Bool) :
    (add64 a b cin).word = a + b + BitVec.ofNat 64 cin.toNat := by
  apply BitVec.eq_of_toNat_eq
  simp [add64]

/-- The difference word is the truncated difference, whatever the borrow. -/
theorem sub64_word (a b : Word) (bin : Bool) :
    (sub64 a b bin).word = a - b - BitVec.ofNat 64 bin.toNat := by
  rw [BitVec.eq_sub_iff_add_eq, BitVec.eq_sub_iff_add_eq]
  apply BitVec.eq_of_toNat_eq
  simp [Nat.add_right_comm _ bin.toNat, sub64_equation, Nat.mod_eq_of_lt a.isLt]

/-- R43: the first step is the cell without a carry in. -/
theorem addStepOne_eq_add64 (a b : Word) : addStepOne a b = add64 a b false := by
  rw [addStepOne, CellOut.mk.injEq, add64_word, add64_carry]
  simp

/-- R43: the second step is the cell with the carry in as its only addend. -/
theorem addStepTwo_eq_add64 (a b : Word) (cin : Bool) :
    addStepTwo a b cin = add64 (addStepOne a b).word 0#64 cin := by
  rw [addStepTwo, CellOut.mk.injEq, add64_word, add64_carry]
  simp

/-- R47: the first step is the cell without a borrow in. -/
theorem subStepOne_eq_sub64 (a b : Word) : subStepOne a b = sub64 a b false := by
  rw [subStepOne, CellOut.mk.injEq, sub64_word, sub64_carry]
  simp

/-- R47: the second step is the cell that takes away the borrow in alone. -/
theorem subStepTwo_eq_sub64 (a b : Word) (bin : Bool) :
    subStepTwo a b bin = sub64 (subStepOne a b).word 0#64 bin := by
  rw [subStepTwo, CellOut.mk.injEq, sub64_word, sub64_carry]
  simp

/-- R43: both steps together make the exact sum, each carry with its weight. -/
theorem addSteps_equation (a b : Word) (cin : Bool) :
    ((addStepOne a b).carry.toNat + (addStepTwo a b cin).carry.toNat) * 2 ^ 64 + (addStepTwo a b cin).word.toNat
      = a.toNat + b.toNat + cin.toNat := by
  have h₁ := add64_equation a b false
  have h₂ := add64_equation (addStepOne a b).word 0#64 cin
  rw [← addStepOne_eq_add64] at h₁
  rw [← addStepTwo_eq_add64] at h₂
  rw [Bool.toNat_false] at h₁
  rw [BitVec.toNat_zero] at h₂
  linarith

/-- R47: both steps together make the exact difference, each borrow with its weight. -/
theorem subSteps_equation (a b : Word) (bin : Bool) :
    (subStepTwo a b bin).word.toNat + b.toNat + bin.toNat
      = a.toNat + ((subStepOne a b).carry.toNat + (subStepTwo a b bin).carry.toNat) * 2 ^ 64 := by
  have h₁ := sub64_equation a b false
  have h₂ := sub64_equation (subStepOne a b).word 0#64 bin
  rw [← subStepOne_eq_sub64] at h₁
  rw [← subStepTwo_eq_sub64] at h₂
  rw [Bool.toNat_false] at h₁
  rw [BitVec.toNat_zero] at h₂
  linarith

/-- Two partial carries would weigh more than the largest total, 2^65 - 1 (R43). -/
theorem addSteps_not_both_carry (a b : Word) (cin : Bool) :
    ¬((addStepOne a b).carry = true ∧ (addStepTwo a b cin).carry = true) := by
  rintro ⟨h₁, h₂⟩
  have h := addSteps_equation a b cin
  rw [h₁, h₂, Bool.toNat_true] at h
  have hc := cin.toNat_le
  omega

/-- Two partial borrows would weigh more than can be taken away, 2^64 (R47). -/
theorem subSteps_not_both_borrow (a b : Word) (bin : Bool) :
    ¬((subStepOne a b).carry = true ∧ (subStepTwo a b bin).carry = true) := by
  rintro ⟨h₁, h₂⟩
  have h := subSteps_equation a b bin
  rw [h₁, h₂, Bool.toNat_true] at h
  have hc := bin.toNat_le
  omega

/-- Bits that are never both 1 are joined by `or` as they are added. -/
theorem toNat_or_of_not_both {c d : Bool} (h : ¬(c = true ∧ d = true)) : (c || d).toNat = c.toNat + d.toNat := by
  cases c <;> cases d <;> simp_all

/-- Settles O17: the two partial carries are never both 1, so their `or` carries their whole weight. -/
theorem twoStepFormsAreTheCells : Obligations.TwoStepFormsAreTheCells := by
  intro a b c
  have hadd := addSteps_not_both_carry a b c
  have hsub := subSteps_not_both_borrow a b c
  refine ⟨eq_add64_of_equation ?_, eq_sub64_of_equation ?_, hadd, hsub⟩
  · rw [twoStepAdd, toNat_or_of_not_both hadd, addSteps_equation]
  · rw [twoStepSub, toNat_or_of_not_both hsub, subSteps_equation]

theorem toNat_add_toNat_not (c : Bool) : c.toNat + (!c).toNat = 1 := by cases c <;> rfl

/-- Settles O16: the complement of the subtrahend and of the borrow turn the adder's total into R44's plus 2^64. -/
theorem complementSubtractorIsTheSubCell : Obligations.ComplementSubtractorIsTheSubCell := by
  intro a b bin
  apply eq_sub64_of_equation
  have h := add64_equation a (~~~b) (!bin)
  have hb := b.isLt
  have hk := toNat_add_toNat_not (add64 a (~~~b) (!bin)).carry
  have hbin := toNat_add_toNat_not bin
  rw [BitVec.toNat_not] at h
  simp only [complementSub]
  omega

end Sys2Proof.Machine

/-! ## The bit-level chains -/

namespace Sys2Proof.Machine

/-- A full adder's carry is the majority of its three inputs. -/
theorem generate_or_propagate_eq_atLeastTwo (x y c : Bool) :
    ((x && y) || (c && (x ^^ y))) = Bool.atLeastTwo x y c := by
  cases x <;> cases y <;> cases c <;> rfl

/-- R41: the carries of the chain are those of the exact sums of the operands' low bits. -/
theorem rippleCarry_eq_carry (a b : Word) (cin : Bool) (i : Nat) :
    rippleCarry a b cin i = BitVec.carry i a b cin := by
  induction i with
  | zero => rw [rippleCarry, BitVec.carry_zero]
  | succ i ih => rw [rippleCarry, ih, generate_or_propagate_eq_atLeastTwo, BitVec.carry_succ]

/-- Settles O13: each bit of the sum is the `xor` of the operands' bits and the carry into it, and the carry out is the
carry of the whole words. -/
theorem rippleAdderIsTheAddCell : Obligations.RippleAdderIsTheAddCell := by
  intro a b cin
  rw [rippleAdd, CellOut.mk.injEq]
  constructor
  · have hcin : BitVec.ofNat 64 cin.toNat = (BitVec.ofBool cin).setWidth 64 := by cases cin <;> rfl
    rw [add64_word, hcin]
    apply BitVec.eq_of_getElem_eq
    intro i hi
    rw [BitVec.getElem_ofFnLE, BitVec.getElem_add_add_bool, rippleCarry_eq_carry, Bool.xor_assoc,
      BitVec.getLsbD_eq_getElem hi, BitVec.getLsbD_eq_getElem hi]
  · rw [rippleCarry_eq_carry, add64_carry, BitVec.carry, Nat.mod_eq_of_lt a.isLt, Nat.mod_eq_of_lt b.isLt]

/-- R45: the borrows are the complements of the carries of the complemented addition. -/
theorem rippleBorrow_eq_not_rippleCarry (a b : Word) (bin : Bool) {i : Nat} (hi : i ≤ 64) :
    rippleBorrow a b bin i = !rippleCarry a (~~~b) (!bin) i := by
  induction i with
  | zero => simp [rippleBorrow, rippleCarry]
  | succ i ih =>
    have hlt : i < 64 := hi
    rw [rippleBorrow, rippleCarry, ih hlt.le, BitVec.getLsbD_not]
    simp only [hlt, decide_true, Bool.true_and]
    cases a.getLsbD i <;> cases b.getLsbD i <;> simp

/-- R45, R46: the borrow chain is the carry chain with subtrahend, borrow in and carry out complemented. -/
theorem rippleSub_eq_complement_rippleAdd (a b : Word) (bin : Bool) :
    rippleSub a b bin = ⟨(rippleAdd a (~~~b) (!bin)).word, !(rippleAdd a (~~~b) (!bin)).carry⟩ := by
  rw [rippleSub, rippleAdd, CellOut.mk.injEq]
  refine ⟨?_, rippleBorrow_eq_not_rippleCarry a b bin le_rfl⟩
  apply BitVec.eq_of_getElem_eq
  intro i hi
  rw [BitVec.getElem_ofFnLE, BitVec.getElem_ofFnLE, rippleBorrow_eq_not_rippleCarry a b bin hi.le,
    BitVec.getLsbD_not]
  simp [hi]

/-- Settles O15: the borrow chain is the complement form (O16) of the carry chain (O13). -/
theorem rippleSubtractorIsTheSubCell : Obligations.RippleSubtractorIsTheSubCell := by
  intro a b bin
  rw [rippleSub_eq_complement_rippleAdd, rippleAdderIsTheAddCell]
  exact complementSubtractorIsTheSubCell a b bin

/-! ### The lookahead form -/

theorem groupPropagate_succ (a b : Word) (j n : Nat) :
    groupPropagate a b j (n + 1) = (groupPropagate a b j n && propagateBit a b (j + n)) := by
  simp [groupPropagate, List.range'_concat]

/-- The bits of a block above bit `m`, with the bit `k` on top of them. -/
theorem groupPropagate_above_succ (a b : Word) {m k : Nat} (h : m < k) :
    groupPropagate a b (m + 1) (k + 1 - (m + 1))
      = (groupPropagate a b (m + 1) (k - (m + 1)) && propagateBit a b k) := by
  rw [Nat.succ_sub h, groupPropagate_succ, Nat.add_sub_cancel' h]

/-- One more bit at the top of a block: it generates, or it propagates what the block below generates. -/
theorem groupGenerate_succ (a b : Word) (j n : Nat) :
    groupGenerate a b j (n + 1)
      = (generateBit a b (j + n) || (propagateBit a b (j + n) && groupGenerate a b j n)) := by
  have hbelow : ((List.range' j n).any fun m =>
        generateBit a b m && groupPropagate a b (m + 1) (j + n + 1 - (m + 1)))
      = (groupGenerate a b j n && propagateBit a b (j + n)) := by
    rw [groupGenerate, List.and_any_distrib_right, Bool.eq_iff_iff, List.any_eq_true, List.any_eq_true]
    refine exists_congr fun m => and_congr_right fun hm => ?_
    rw [groupPropagate_above_succ a b (List.mem_range'_1.mp hm).2, Bool.and_assoc]
  have htop : groupPropagate a b (j + n + 1) (j + n + 1 - (j + n + 1)) = true := by
    rw [Nat.sub_self]
    rfl
  rw [groupGenerate, List.range'_1_concat, List.any_append, ← Nat.add_assoc, hbelow, List.any_cons, List.any_nil,
    htop, Bool.and_true, Bool.or_false, Bool.or_comm, Bool.and_comm (groupGenerate a b j n)]

/-- R42: the carry above one more bit, from the carry into it. -/
theorem lookaheadCarry_succ (a b : Word) (cin : Bool) (i : Nat) :
    lookaheadCarry a b cin (i + 1)
      = (generateBit a b i || (propagateBit a b i && lookaheadCarry a b cin i)) := by
  rw [lookaheadCarry, lookaheadCarry, groupGenerate_succ, groupPropagate_succ, Nat.zero_add]
  cases propagateBit a b i <;> simp [Bool.or_assoc]

/-- R42: the expanded carries are those of the ripple chain. -/
theorem lookaheadCarry_eq_rippleCarry (a b : Word) (cin : Bool) (i : Nat) :
    lookaheadCarry a b cin i = rippleCarry a b cin i := by
  induction i with
  | zero => simp [lookaheadCarry, rippleCarry, groupGenerate, groupPropagate]
  | succ i ih => rw [lookaheadCarry_succ, ih, rippleCarry, Bool.and_comm (rippleCarry a b cin i)]; rfl

theorem lookaheadAdd_eq_rippleAdd (a b : Word) (cin : Bool) : lookaheadAdd a b cin = rippleAdd a b cin := by
  simp only [lookaheadAdd, rippleAdd, lookaheadCarry_eq_rippleCarry, propagateBit]

/-- R42: the carry out of a block, by its group signals and the carry into it. -/
theorem lookaheadCarry_add (a b : Word) (cin : Bool) (j n : Nat) :
    lookaheadCarry a b cin (j + n)
      = (groupGenerate a b j n || (groupPropagate a b j n && lookaheadCarry a b cin j)) := by
  induction n with
  | zero => simp [groupGenerate, groupPropagate]
  | succ n ih =>
    rw [← Nat.add_assoc, lookaheadCarry_succ, ih, groupGenerate_succ, groupPropagate_succ]
    cases propagateBit a b (j + n) <;> simp [Bool.or_assoc]

/-- Settles O14: the expanded carries are the ripple chain's (O13), and a block grows bit by bit. -/
theorem lookaheadAdderIsTheAddCell : Obligations.LookaheadAdderIsTheAddCell := by
  intro a b cin
  exact ⟨(lookaheadAdd_eq_rippleAdd a b cin).trans (rippleAdderIsTheAddCell a b cin), lookaheadCarry_add a b cin⟩

end Sys2Proof.Machine

/-! ## The structure of the cells in the 128-bit units -/

namespace Sys2Proof.Machine

/-- D9: an implementation that meets its obligation is the trusted one. -/
theorem AdderImpl.meets.eq_arithmeticCells {m : AdderImpl} (h : m.meets) : m = arithmeticCells := by
  obtain ⟨hadd, hsub⟩ := h
  rw [arithmeticCells, AdderImpl.mk.injEq]
  exact ⟨funext fun a => funext fun b => funext (hadd a b), funext fun a => funext fun b => funext (hsub a b)⟩

theorem rippleCells_meets : rippleCells.meets := ⟨rippleAdderIsTheAddCell, rippleSubtractorIsTheSubCell⟩

theorem lookaheadCells_meets : lookaheadCells.meets := by
  have hadd (a b c) : lookaheadAdd a b c = add64 a b c := (lookaheadAdderIsTheAddCell a b c).1
  refine ⟨hadd, fun a b bin => ?_⟩
  simp only [lookaheadCells, hadd]
  exact complementSubtractorIsTheSubCell a b bin

/-- Settles O19: both implementations meet the obligation of D9, so their units are those of the arithmetic cells. -/
theorem cellStructureIsNotObservable : Obligations.CellStructureIsNotObservable := by
  refine ⟨rippleCells_meets, lookaheadCells_meets, fun a b => ?_, fun a b => ?_⟩
  · rw [rippleCells_meets.eq_arithmeticCells]
    exact ⟨rfl, rfl⟩
  · rw [lookaheadCells_meets.eq_arithmeticCells]
    exact ⟨rfl, rfl⟩

end Sys2Proof.Machine

/-! ## The comparison that is not the carry -/

namespace Sys2Proof.Machine

/-- R55: with a carry-in of 0 the sum word falls below the first operand exactly when the sum wraps. -/
theorem add64_carry_iff_word_lt (a b : Word) :
    (add64 a b false).carry = true ↔ (add64 a b false).word.toNat < a.toNat := by
  have heq := add64_equation a b false
  have hb := b.isLt
  cases hc : (add64 a b false).carry with
  | false =>
    simp only [hc, Bool.toNat_false] at heq
    simp only [Bool.false_eq_true, false_iff]
    omega
  | true =>
    simp only [hc, Bool.toNat_true, Bool.toNat_false] at heq
    simp only [true_iff]
    omega

/-- R55: all ones and a carry-in of 1 add exactly `2^64`. -/
theorem add64_max64_true (a : Word) : add64 a max64 true = ⟨a, true⟩ := by
  have hmax : max64.toNat = 2 ^ 64 - 1 := rfl
  exact (eq_add64_of_equation (by simp only [hmax, Bool.toNat_true]; omega)).symm

/-- Settles O20. -/
theorem comparisonIsNotTheCarry : Obligations.ComparisonIsNotTheCarry :=
  fun a b => ⟨add64_carry_iff_word_lt a b, add64_max64_true a⟩

end Sys2Proof.Machine

/-! ## ADD on integers -/

namespace Sys2Proof.Machine

open Sys2Proof.Safety

/-- An integer below `2^128` is the integer of its value. -/
theorem nat_valueOf {n : Nat} (h : n < 2 ^ 128) : (valueOf n).nat = n := by
  have hhigh : n / 2 ^ 64 < 2 ^ 64 := Nat.div_lt_of_lt_mul h
  simp only [valueOf, U128.nat, BitVec.toNat_ofNat, Nat.mod_eq_of_lt hhigh, Nat.div_add_mod']

/-- R52: the carry out and the result words are quotient and remainder of the exact sum by `2^128`. -/
theorem adc128_div_mod (a b : U128) :
    (a.nat + b.nat) / 2 ^ 128 = (adc128 a b).cHi.toNat ∧ (a.nat + b.nat) % 2 ^ 128 = (adc128 a b).value.nat := by
  refine (Nat.div_mod_unique (by decide)).mpr ⟨?_, u128_nat_lt _⟩
  rw [Nat.add_comm, Nat.mul_comm, adc128_equation]

/-- Settles O21, from the equation of the chain and the division with remainder that it is. -/
theorem addUnitEquation : Obligations.AddUnitEquation := by
  intro a b
  obtain ⟨hdiv, hmod⟩ := adc128_div_mod a b
  refine ⟨?_, ?_, ?_, hdiv.symm⟩
  · rw [Nat.add_assoc]
    exact adc128_equation a b
  · rw [adc128_cHi, decide_eq_true_iff]
  · rw [hmod, valueOf_nat]

/-! ### How ADD and SUB end -/

/-- In the running unit a request whose exact outcome is a result ends with it. -/
theorem endsOk_of_exactOutcome {i : Instr} {s : State} {v : U128} {c : Bool} (hrun : s.fsr.cause = 0#2)
    (hx : exactOutcome i = .ok v c) : EndsOk i s v c := by
  rcases acceptedExactly i with ⟨r, hc, ho, he⟩ | ⟨k, cLo, cHi, ho, -⟩
  · obtain ⟨rfl, rfl⟩ : r.value = v ∧ r.cLo = c := by simpa [ho] using hx
    exact ⟨s.deliver r, he s hrun, deliver_ports_of_running hrun hc, rfl⟩
  · simp [ho] at hx

/-- R50: a sum below `2^128` is delivered exactly. -/
theorem endsOk_add {a b : U128} {s : State} (hrun : s.fsr.cause = 0#2) (h : a.nat + b.nat < 2 ^ 128) :
    EndsOk (.add a b) s (valueOf (a.nat + b.nat)) (decide (2 ^ 64 ≤ a.low.toNat + b.low.toNat)) :=
  endsOk_of_exactOutcome hrun (if_neg (Nat.not_le.mpr h))

/-- R56: a difference of 0 or more is delivered exactly. -/
theorem endsOk_sub {a b : U128} {s : State} (hrun : s.fsr.cause = 0#2) (h : b.nat ≤ a.nat) :
    EndsOk (.sub a b) s (valueOf (a.nat - b.nat)) (decide (a.low.toNat < b.low.toNat)) :=
  endsOk_of_exactOutcome hrun (if_neg (Nat.not_lt.mpr h))

/-- R95 for ADD and SUB: an overflow of the chain is written to `FSR`, and the ports show its carries and no result. -/
theorem fault_of_arithmeticCycle {i : Instr} {op : Op} {r : ChainOut} {s : State} (hrun : s.fsr.cause = 0#2)
    (hovf : ovfdet op.code r.cHi = true) (he : exec i s = .next (s.arithmeticCycle op r)) :
    ∃ t, exec i s = .next t ∧ t.fsr = { cause := 1#2, fop := op.code } ∧
      t.ports = portsFault r.cLo r.cHi s.fsr := by
  rw [arithmeticCycle_of_running hrun, if_pos hovf] at he
  exact ⟨_, he, rfl, takeFault_ports_of_running hrun _ _ _ _⟩

/-- Settles O24: a sum that fits is the exact outcome, one that does not is the carry out of the chain, and a halted
unit turns every request away. -/
theorem addIsExactOrFaults : Obligations.AddIsExactOrFaults := by
  intro a b s
  refine ⟨reqOp_encode _, fun hrun hfits => ?_, fun hrun hover => ?_, turnedAway_of_halted _⟩
  · exact ⟨_, nat_valueOf hfits, endsOk_add hrun hfits⟩
  · have hc : (adc128 a b).cHi = true := by rw [adc128_cHi, decide_eq_true hover]
    have hfault := fault_of_arithmeticCycle (i := .add a b) hrun ((ovfdet_add _).trans hc) rfl
    rwa [hc, adc128_cLo] at hfault

/-! ### The laws of ADD -/

theorem adc128_comm (a b : U128) : adc128 a b = adc128 b a := by
  obtain ⟨hcomm, -⟩ := cellLaws
  simp only [adc128, adc128With, arithmeticCells, hcomm a.low, hcomm a.high]

theorem exec_add_comm (a b : U128) (s : State) : exec (.add a b) s = exec (.add b a) s := by
  simp only [exec, execAdd, adc128_comm a b]

theorem zeroValue_nat : zeroValue.nat = 0 := rfl

theorem endsOk_add_zero (a : U128) {s : State} (hrun : s.fsr.cause = 0#2) : EndsOk (.add a zeroValue) s a false := by
  have hnat : a.nat + zeroValue.nat = a.nat := by rw [zeroValue_nat, Nat.add_zero]
  have h := endsOk_add hrun (hnat.trans_lt (u128_nat_lt a))
  have hlow : ¬2 ^ 64 ≤ a.low.toNat + zeroValue.low.toNat := Nat.not_le.mpr a.low.isLt
  rwa [hnat, valueOf_nat, decide_eq_false hlow] at h

/-- R53: ADD undoes a SUB that ends `Ok`, in the cycle after it. -/
theorem endsOk_add_after_sub {a b : U128} {s : State} (hrun : s.fsr.cause = 0#2) (h : b.nat ≤ a.nat) :
    ∃ v c c' t, exec (.sub a b) s = .next t ∧ EndsOk (.sub a b) s v c ∧ EndsOk (.add v b) t a c' := by
  have hsub := endsOk_sub hrun h
  have hnat : (valueOf (a.nat - b.nat)).nat + b.nat = a.nat := by
    rw [nat_valueOf (Nat.sub_lt_of_lt (u128_nat_lt a)), Nat.sub_add_cancel h]
  have hadd := endsOk_add hrun (hnat.trans_lt (u128_nat_lt a))
  rw [hnat, valueOf_nat] at hadd
  obtain ⟨t, he, hadd'⟩ := endsOk_after_endsOk hsub hadd
  exact ⟨_, _, _, t, he, hsub, hadd'⟩

/-- Settles O30: the cells are symmetric in their operands, so the cycle is; adding back is exact on integers. -/
theorem addLaws : Obligations.AddLaws := by
  refine ⟨fun a s hrun => ⟨endsOk_add_zero a hrun, ?_⟩, adc128_comm, exec_add_comm,
    fun _ _ _ => endsOk_add_after_sub⟩
  have h := endsOk_add_zero a hrun
  rwa [EndsOk, exec_add_comm] at h

end Sys2Proof.Machine

/-! ## SUB on integers -/

namespace Sys2Proof.Machine

open Sys2Proof.Safety

/-- R58, with the subtraction on the integers' side: the borrow out has the weight `2^128`. -/
theorem sbb128_sub_equation (a b : U128) :
    (a.nat : Int) - b.nat = (sbb128 a b).value.nat - ((sbb128 a b).cHi.toNat : Int) * 2 ^ 128 := by
  have h := sbb128_equation a b
  omega

/-- Settles O22: the third part reduces the equation of the chain modulo `2^128`, where the borrow has no weight. -/
theorem subUnitEquation : Obligations.SubUnitEquation := by
  intro a b
  have heq := sbb128_sub_equation a b
  refine ⟨?_, by rw [sbb128_cHi, decide_eq_true_iff], ?_⟩
  · simpa [U128.nat, ChainOut.value] using heq.symm
  · rw [heq, Int.sub_mul_emod_self_right]
    exact (Int.emod_eq_of_lt (Int.natCast_nonneg _) (mod_cast u128_nat_lt _)).symm

/-- Settles O25: a difference of 0 or more is the exact outcome, a negative one is the borrow out of the chain, and a
halted unit turns every request away. -/
theorem subIsExactOrFaults : Obligations.SubIsExactOrFaults := by
  intro a b s
  refine ⟨reqOp_encode _, fun hrun hle => ?_, fun hrun hlt => ?_, turnedAway_of_halted _⟩
  · exact ⟨_, nat_valueOf (Nat.sub_lt_of_lt (u128_nat_lt a)), endsOk_sub hrun hle⟩
  · have hc : (sbb128 a b).cHi = true := by rw [sbb128_cHi, decide_eq_true hlt]
    have hfault := fault_of_arithmeticCycle (i := .sub a b) hrun ((ovfdet_sub _).trans hc) rfl
    rwa [hc, sbb128_cLo] at hfault

/-! ### The laws of SUB -/

theorem portsOk_inj {v w : U128} {c d : Bool} {f : Fsr} (h : portsOk v c f = portsOk w d f) : v = w ∧ c = d := by
  obtain ⟨vh, vl⟩ := v
  obtain ⟨wh, wl⟩ := w
  simpa [portsOk, and_assoc] using h

/-- In the running unit a request ends `Ok` with its exact outcome and with nothing else. -/
theorem endsOk_iff_exactOutcome {i : Instr} {s : State} {v : U128} {c : Bool} (hrun : s.fsr.cause = 0#2) :
    EndsOk i s v c ↔ exactOutcome i = .ok v c := by
  refine ⟨fun ⟨t, he, hports, _⟩ => ?_, endsOk_of_exactOutcome hrun⟩
  rcases acceptedExactly i with ⟨r, hcarry, hx, hexec⟩ | ⟨k, cLo, cHi, -, hexec⟩
  · obtain rfl : s.deliver r = t := by simpa [hexec s hrun] using he
    obtain ⟨rfl, rfl⟩ := portsOk_inj ((deliver_ports_of_running hrun hcarry).symm.trans hports)
    exact hx
  · obtain rfl : s.takeFault k i.op cLo cHi = t := by simpa [hexec s hrun] using he
    rw [takeFault_ports_of_running hrun] at hports
    simp [portsFault, portsOk] at hports

theorem u128_nat_inj {a b : U128} (h : a.nat = b.nat) : a = b := by
  rw [← valueOf_nat a, h, valueOf_nat]

/-- R56, by the value delivered: it is the one that makes up for the subtrahend. -/
theorem endsOk_sub_of_nat_add {a b v : U128} {s : State} (hrun : s.fsr.cause = 0#2) (h : v.nat + b.nat = a.nat) :
    EndsOk (.sub a b) s v (decide (a.low.toNat < b.low.toNat)) := by
  have hsub := endsOk_sub hrun (h ▸ Nat.le_add_left b.nat v.nat)
  rwa [← h, Nat.add_sub_cancel, valueOf_nat] at hsub

theorem exists_endsOk_sub_iff {a b : U128} {s : State} (hrun : s.fsr.cause = 0#2) :
    (∃ v c, EndsOk (.sub a b) s v c) ↔ b.nat ≤ a.nat := by
  refine ⟨fun ⟨v, c, h⟩ => ?_, fun h => ⟨_, _, endsOk_sub hrun h⟩⟩
  by_contra hlt
  rw [endsOk_iff_exactOutcome hrun, exactOutcome, if_pos (Nat.not_le.mp hlt)] at h
  cases h

/-- R50: the value of an ADD that ends `Ok` is the exact sum. -/
theorem nat_of_endsOk_add {a b v : U128} {c : Bool} {s : State} (hrun : s.fsr.cause = 0#2)
    (h : EndsOk (.add a b) s v c) : v.nat = a.nat + b.nat := by
  rw [endsOk_iff_exactOutcome hrun, exactOutcome] at h
  split at h
  · cases h
  · next hfits =>
    obtain ⟨rfl, -⟩ := Response.ok.inj h
    exact nat_valueOf (Nat.not_le.mp hfits)

/-- R59: SUB undoes an ADD that ends `Ok`, in the cycle after it. -/
theorem endsOk_sub_after_add {a b v : U128} {c : Bool} {s t : State} (hrun : s.fsr.cause = 0#2)
    (hadd : EndsOk (.add a b) s v c) (he : exec (.add a b) s = .next t) : ∃ c', EndsOk (.sub v b) t a c' := by
  have hsub := endsOk_sub_of_nat_add hrun (nat_of_endsOk_add hrun hadd).symm
  obtain ⟨u, hu, hsub'⟩ := endsOk_after_endsOk hadd hsub
  obtain rfl : u = t := by simpa [hu] using he
  exact ⟨_, hsub'⟩

/-- R59: without a borrow out the chain's words are delivered, whatever the borrow between its cells. -/
theorem endsOk_sub_of_no_borrow {a b : U128} {s : State} (hrun : s.fsr.cause = 0#2)
    (h : (sbb128 a b).cHi = false) : EndsOk (.sub a b) s (sbb128 a b).value (sbb128 a b).cLo :=
  endsOk_of_exactOutcome hrun (by simp [exactOutcome_sub, h])

/-- Settles O31: the differences `a - 0`, `a - a` and `(a + b) - b` are known by what makes up for the subtrahend, and
two comparisons in opposite directions make the integers, so the values, equal. -/
theorem subLaws : Obligations.SubLaws := by
  refine ⟨fun a s hrun => ⟨?_, ?_⟩, fun a b s hrun => ⟨exists_endsOk_sub_iff hrun, ?_⟩,
    fun _ _ _ => endsOk_add_after_sub, fun _ _ _ _ _ _ => endsOk_sub_after_add, fun a b s hrun hlo hhi => ?_⟩
  · simpa [zeroValue] using endsOk_sub_of_nat_add (b := zeroValue) hrun (Nat.add_zero a.nat)
  · simpa using endsOk_sub_of_nat_add (v := zeroValue) hrun (Nat.zero_add a.nat)
  · rw [exists_endsOk_sub_iff hrun, exists_endsOk_sub_iff hrun]
    exact ⟨fun ⟨hba, hab⟩ => u128_nat_inj (Nat.le_antisymm hab hba), fun h => h ▸ ⟨le_rfl, le_rfl⟩⟩
  · exact hlo ▸ endsOk_sub_of_no_borrow hrun hhi

end Sys2Proof.Machine

/-! ## The overflow detector on integers -/

namespace Sys2Proof.Machine

open Sys2Proof.Safety

/-- R62: the detector in its own two bits. -/
theorem ovfdet_iff (op : BitVec 2) (c : Bool) : ovfdet op c = true ↔ op.getLsbD 1 = false ∧ c = true := by
  simp [ovfdet, implemented]

/-- Settles O23: on the codes of ADD and SUB the detector is the carry or borrow out of the chain. -/
theorem overflowDetectorMeansTheResultDoesNotFit : Obligations.OverflowDetectorMeansTheResultDoesNotFit := by
  refine ⟨ovfdet_iff, fun a b => ⟨?_, ?_⟩⟩
  · change ovfdet Op.add.code _ = true ↔ _
    rw [ovfdet_add, adc128_cHi, decide_eq_true_iff]
  · change ovfdet Op.sub.code _ = true ↔ _
    rw [ovfdet_sub, sbb128_cHi, decide_eq_true_iff]

/-! ### The gate on the result ports -/

/-- An ADD or SUB on the ports is the arithmetic cycle of the chain that R34 selects, in every state. -/
theorem exec_instr_of_implemented {p : Pins} (himpl : implemented p.op = true) (s : State) :
    exec p.instr s = .next (s.arithmeticCycle (Op.ofCode p.op) (selected p)) := by
  have hop : p.op = (Op.ofCode p.op).code := (code_ofCode p.op).symm
  rw [pins_instr_eq]
  generalize Op.ofCode p.op = op at hop ⊢
  cases op with
  | add => rw [selected_of_add hop]; rfl
  | sub => rw [selected_of_sub hop]; rfl
  | mul => rw [hop, implemented_mul] at himpl; cases himpl
  | rsv3 => rw [hop, implemented_rsv3] at himpl; cases himpl

/-- Settles O29: of the three things an arithmetic cycle can do, the detector picks the fault, which drives the result
ports with 0, or the delivery of the chain's words; the running unit excludes the third. -/
theorem wrappedWordsNeverLeaveTheUnit : Obligations.WrappedWordsNeverLeaveTheUnit := by
  intro p s hrun hbit
  have himpl : implemented p.op = true := by rw [implemented, hbit]; rfl
  refine ⟨_, exec_instr_of_implemented himpl s, ?_⟩
  have hcases := arithmeticCycle_cases (Op.ofCode p.op) (selected p) s
  rw [code_ofCode] at hcases
  rcases hcases with ⟨-, hovf, hcycle⟩ | ⟨-, hovf, hcycle⟩ | ⟨hhalted, -⟩
  · simp [hcycle, hovf]
  · simp [hcycle, hovf]
  · exact absurd hrun hhalted

/-! ### The host's pre-checks -/

theorem causeCode_inj {k k' : Cause} (h : k.code = k'.code) : k = k' := by
  revert h
  cases k <;> cases k' <;> decide

theorem opCode_inj {op op' : Op} (h : op.code = op'.code) : op = op' := by
  rw [← ofCode_code op, h, ofCode_code]

/-- In the running unit a request faults with its exact outcome and with nothing else. -/
theorem endsFault_iff_exactOutcome {i : Instr} {s : State} {k : Cause} {op : Op} (hrun : s.fsr.cause = 0#2) :
    EndsFault i s k op ↔ exactOutcome i = .fault k op := by
  rcases acceptedExactly i with ⟨r, hcarry, hx, hexec⟩ | ⟨k', cLo, cHi, hx, hexec⟩
  · refine ⟨fun ⟨t, _, _, he, hports, _⟩ => ?_, fun h => by simp [hx] at h⟩
    obtain rfl : s.deliver r = t := by simpa [hexec s hrun] using he
    rw [deliver_ports_of_running hrun hcarry] at hports
    simp [portsFault, portsOk] at hports
  · refine ⟨fun ⟨t, _, _, he, _, hfsr⟩ => ?_, fun h => ?_⟩
    · obtain rfl : s.takeFault k' i.op cLo cHi = t := by simpa [hexec s hrun] using he
      obtain ⟨hcause, hfop⟩ := Fsr.mk.inj hfsr
      rw [hx, causeCode_inj hcause, opCode_inj hfop]
    · obtain ⟨rfl, rfl⟩ := Response.fault.inj (hx.symm.trans h)
      exact ⟨_, _, _, hexec s hrun, takeFault_ports_of_running hrun _ _ _ _, rfl⟩

theorem addFits_iff {a b : U128} : addFits a b = true ↔ a.nat + b.nat < 2 ^ 128 := by
  have ha := u128_nat_lt a
  rw [addFits, decide_eq_true_iff]
  omega

theorem subFits_iff {a b : U128} : subFits a b = true ↔ b.nat ≤ a.nat := decide_eq_true_iff

theorem exists_endsOk_add_iff {a b : U128} {s : State} (hrun : s.fsr.cause = 0#2) :
    (∃ v c, EndsOk (.add a b) s v c) ↔ a.nat + b.nat < 2 ^ 128 :=
  ⟨fun ⟨v, _, h⟩ => nat_of_endsOk_add hrun h ▸ u128_nat_lt v, fun h => ⟨_, _, endsOk_add hrun h⟩⟩

/-- R50: ADD faults exactly on a sum of `2^128` or more. -/
theorem endsFault_add_iff {a b : U128} {s : State} (hrun : s.fsr.cause = 0#2) :
    EndsFault (.add a b) s .arithmeticOverflow .add ↔ 2 ^ 128 ≤ a.nat + b.nat := by
  simp [endsFault_iff_exactOutcome hrun, exactOutcome]

/-- R56: SUB faults exactly on a negative difference. -/
theorem endsFault_sub_iff {a b : U128} {s : State} (hrun : s.fsr.cause = 0#2) :
    EndsFault (.sub a b) s .arithmeticOverflow .sub ↔ a.nat < b.nat := by
  simp [endsFault_iff_exactOutcome hrun, exactOutcome]

/-- Settles O32: each pre-check, the `Ok` end and the fault are the two sides of one comparison of integers. -/
theorem preChecksPredictTheOutcome : Obligations.PreChecksPredictTheOutcome := by
  intro a b s hrun
  refine ⟨addFits_iff.trans (exists_endsOk_add_iff hrun).symm, ?_,
    subFits_iff.trans (exists_endsOk_sub_iff hrun).symm, ?_⟩
  · rw [endsFault_add_iff hrun, ← Bool.not_eq_true, addFits_iff, Nat.not_lt]
  · rw [endsFault_sub_iff hrun, ← Bool.not_eq_true, subFits_iff, Nat.not_le]

end Sys2Proof.Machine

/-! ## The reserved operations, and the recorded contract of a later multiplier -/

namespace Sys2Proof.Machine

open Sys2Proof.Safety

/-! ### The contract on integers -/

/-- A product in the four partial products of its operands' words. -/
theorem u128_nat_mul (a b : U128) :
    a.nat * b.nat = a.high.toNat * b.high.toNat * 2 ^ 128
      + (a.low.toNat * b.high.toNat + a.high.toNat * b.low.toNat) * 2 ^ 64 + a.low.toNat * b.low.toNat := by
  simp only [U128.nat]
  ring

/-- R69: the contract yields the value of the product, if the product has one. -/
theorem mulContract_eq (a b : U128) :
    mulContract a b = if a.nat * b.nat < 2 ^ 128 then some (valueOf (a.nat * b.nat)) else none := by
  simp only [mulContract, valueOf, Nat.le_sub_one_iff_lt (Nat.two_pow_pos 128)]

theorem mulContract_eq_none_iff {a b : U128} : mulContract a b = none ↔ 2 ^ 128 ≤ a.nat * b.nat := by
  rw [mulContract_eq, ite_eq_right_iff, ← Nat.not_lt]
  exact ⟨fun h hlt => Option.some_ne_none _ (h hlt), fun h hlt => absurd hlt h⟩

theorem nat_of_mulContract {a b v : U128} (h : mulContract a b = some v) : v.nat = a.nat * b.nat := by
  rw [mulContract_eq] at h
  split at h
  · next hfits =>
    obtain rfl := Option.some.inj h
    exact nat_valueOf hfits
  · cases h

/-! ### How a reserved operation ends -/

/-- R68, R70: a reserved code is written to `FSR` with cause 2, and the ports show no carry and no result. -/
theorem fault_of_reservedCycle {i : Instr} {op : Op} {s : State} (hrun : s.fsr.cause = 0#2)
    (he : exec i s = .next (s.reservedCycle op)) :
    ∃ t, exec i s = .next t ∧ t.fsr = { cause := 2#2, fop := op.code } ∧ t.ports = portsFault false false s.fsr := by
  rw [reservedCycle_of_running hrun] at he
  exact ⟨_, he, rfl, takeFault_ports_of_running hrun _ _ _ _⟩

/-- Settles O26: MUL is the reserved cycle of its code, and a halted unit turns every request away. -/
theorem mulAlwaysFaults : Obligations.MulAlwaysFaults := fun _ _ _ =>
  ⟨reqOp_encode _, fun hrun => fault_of_reservedCycle (op := .mul) hrun rfl, turnedAway_of_halted _⟩

/-- Settles O27: RSV3 is the reserved cycle of its code, and a halted unit turns every request away. -/
theorem unassignedCodeAlwaysFaults : Obligations.UnassignedCodeAlwaysFaults := fun _ _ _ =>
  ⟨reqOp_encode _, fun hrun => fault_of_reservedCycle (op := .rsv3) hrun rfl, turnedAway_of_halted _⟩

/-! ### Only the running unit ends a request -/

/-- R17: a request the unit turns away has no outcome, so it shows neither a result nor a fault. -/
theorem silent_of_turnedAway {i : Instr} {s t : State} (h : TurnedAway i s) (he : exec i s = .next t) :
    t.ports.rspValid = false ∧ t.ports.rspFault = false := by
  obtain ⟨u, hu, hports, -⟩ := h
  obtain rfl : u = t := by simpa [hu] using he
  exact hports ▸ ⟨rfl, rfl⟩

theorem running_of_endsOk {i : Instr} {s : State} {v : U128} {c : Bool} (h : EndsOk i s v c) : s.fsr.cause = 0#2 := by
  obtain ⟨t, he, hports, -⟩ := h
  by_contra hhalted
  have hsilent := (silent_of_turnedAway (turnedAway_of_halted i hhalted) he).left
  simp [hports, portsOk] at hsilent

theorem running_of_endsFault {i : Instr} {s : State} {k : Cause} {op : Op} (h : EndsFault i s k op) :
    s.fsr.cause = 0#2 := by
  obtain ⟨t, _, _, he, hports, -⟩ := h
  by_contra hhalted
  have hsilent := (silent_of_turnedAway (turnedAway_of_halted i hhalted) he).right
  simp [hports, portsFault] at hsilent

/-- In any state a request that ends `Ok` ends with its exact outcome. -/
theorem exactOutcome_of_endsOk {i : Instr} {s : State} {v : U128} {c : Bool} (h : EndsOk i s v c) :
    exactOutcome i = .ok v c :=
  (endsOk_iff_exactOutcome (running_of_endsOk h)).mp h

/-- In any state a request that ends in a fault ends with its exact outcome. -/
theorem exactOutcome_of_endsFault {i : Instr} {s : State} {k : Cause} {op : Op} (h : EndsFault i s k op) :
    exactOutcome i = .fault k op :=
  (endsFault_iff_exactOutcome (running_of_endsFault h)).mp h

/-- R68: MUL delivers no product. -/
theorem not_endsOk_mul (a b : U128) (s : State) (v : U128) (c : Bool) : ¬EndsOk (.mul a b) s v c :=
  fun h => nomatch exactOutcome_of_endsOk h

/-- R68: the one fault MUL can end in is the reserved one. -/
theorem cause_of_endsFault_mul {a b : U128} {s : State} {k : Cause} {op : Op} (h : EndsFault (.mul a b) s k op) :
    k = .reservedOperation :=
  (Response.fault.inj (exactOutcome_of_endsFault h)).left.symm

/-- Settles O56: the contract is the value of the exact product where that fits, and the exact outcome of this
hardware's MUL is neither a result nor an overflow. -/
theorem recordedMultiplierContract : Obligations.RecordedMultiplierContract :=
  ⟨fun a b => ⟨u128_nat_mul a b, mulContract_eq_none_iff, fun _ => nat_of_mulContract⟩, by decide, by decide,
    fun a b s => ⟨not_endsOk_mul a b s, fun h => nomatch cause_of_endsFault_mul h⟩⟩

end Sys2Proof.Machine

/-! ## The host's conversions, equality and renderings -/

namespace Sys2Proof.Machine

open Sys2Proof.Safety

/-! ### Equality -/

theorem sameValue_iff {x y : U128} : sameValue x y = true ↔ x = y := by
  cases x
  cases y
  simp [sameValue]

/-- Settles O53: a value is determined by its integer. -/
theorem equalityIsEqualityOfIntegers : Obligations.EqualityIsEqualityOfIntegers :=
  fun _ _ => ⟨sameValue_iff.trans ⟨congrArg U128.nat, u128_nat_inj⟩, sameValue_iff⟩

/-! ### Conversions -/

theorem pointerWidthAllowed_iff {n : Nat} : pointerWidthAllowed n = true ↔ n ≤ 64 := by
  simp [pointerWidthAllowed]

theorem pointerWidth_le (p : PtrBits) : p.val ≤ 64 :=
  Nat.le_of_lt_succ p.isLt

@[simp] theorem fromNarrow_high {n : Nat} (x : BitVec n) : (fromNarrow x).high = 0 := rfl

/-- R72: the low word is the zero extension. -/
theorem toNat_fromNarrow_low {n : Nat} (x : BitVec n) (h : n ≤ 64) : (fromNarrow x).low.toNat = x.toNat :=
  BitVec.toNat_setWidth_of_le h

/-- R72: zero-extension keeps the integer. -/
theorem nat_fromNarrow {n : Nat} (x : BitVec n) (h : n ≤ 64) : (fromNarrow x).nat = x.toNat := by
  simp [U128.nat, toNat_fromNarrow_low x h]

/-- Settles O51: every named conversion is the narrow one at a width of at most 64. -/
theorem narrowConversionKeepsTheInteger : Obligations.NarrowConversionKeepsTheInteger :=
  ⟨fun _ x hn =>
      have h := pointerWidthAllowed_iff.mp hn
      ⟨fromNarrow_high x, toNat_fromNarrow_low x h, nat_fromNarrow x h⟩,
    fun p x => ⟨fromNarrow_high x, nat_fromNarrow x (pointerWidth_le p)⟩,
    fun x => nat_fromNarrow x (by decide), fun x => nat_fromNarrow x (by decide),
    fun x => nat_fromNarrow x (by decide), fun x => nat_fromNarrow x (by decide),
    fun _ => rfl, fun x => nat_fromNarrow x (pointerWidth_le _)⟩

/-- R74: the shift and the truncations are quotient and remainder of the integer by `2^64`. -/
theorem from128_eq_valueOf (v : BitVec 128) : from128 v = valueOf v.toNat := by
  simp only [from128, valueOf, U128.mk.injEq]
  constructor <;> apply BitVec.eq_of_toNat_eq <;> simp [Nat.shiftRight_eq_div_pow]

theorem nat_from128 (v : BitVec 128) : (from128 v).nat = v.toNat := by
  rw [from128_eq_valueOf, nat_valueOf v.isLt]

/-- R75: joining the words is putting one behind the other. -/
theorem to128_eq_append (v : U128) : to128 v = v.high ++ v.low := by
  rw [to128, BitVec.append_def, BitVec.shiftLeftZeroExtend_eq, BitVec.setWidth'_eq]

theorem toNat_to128 (v : U128) : (to128 v).toNat = v.nat := by
  rw [to128_eq_append, BitVec.toNat_append, ← Nat.shiftLeft_add_eq_or_of_lt v.low.isLt, Nat.shiftLeft_eq, U128.nat]

/-- Settles O52: both conversions keep the integer, which determines the value on either side. -/
theorem nativeConversionIsLossless : Obligations.NativeConversionIsLossless :=
  ⟨fun v => ⟨nat_from128 v, BitVec.eq_of_toNat_eq ((toNat_to128 _).trans (nat_from128 v))⟩,
    fun v => ⟨toNat_to128 v, u128_nat_inj ((nat_from128 _).trans (toNat_to128 v))⟩⟩

/-! ### Numerals -/

/-- The model's digit character is the library's, in every base up to ten. -/
theorem ofNat_eq_digitChar {d : Nat} (h : d < 10) : Char.ofNat (48 + d) = d.digitChar := by
  rw [← Nat.toNat_digitChar_of_lt_ten h, Char.ofNat_toNat]

@[simp] theorem digitsOf_zero (b k : Nat) (acc : List Char) : digitsOf b k 0 acc = acc := by
  cases k <;> rfl

theorem digitsOf_succ {b n : Nat} (k : Nat) (acc : List Char) (hn : 0 < n) :
    digitsOf b (k + 1) n acc = digitsOf b k (n / b) (Char.ofNat (48 + n % b) :: acc) :=
  if_neg hn.ne'

section Numeral

variable {b : Nat} (hb : 1 < b) (hten : b ≤ 10)
include hb hten

/-- With room for all digits the loop puts the whole numeral in front of what is built. -/
theorem digitsOf_eq_toDigits_append {k n : Nat} (acc : List Char) (hn : 0 < n) (hk : n < b ^ k) :
    digitsOf b k n acc = Nat.toDigits b n ++ acc := by
  induction k generalizing n acc with
  | zero =>
    rw [Nat.pow_zero] at hk
    omega
  | succ k ih =>
    have hdigit : n % b < 10 := (Nat.mod_lt n (by omega)).trans_le hten
    rw [digitsOf_succ k acc hn, ofNat_eq_digitChar hdigit]
    rcases Nat.lt_or_ge n b with hlt | hle
    · rw [Nat.div_eq_of_lt hlt, Nat.mod_eq_of_lt hlt, digitsOf_zero, Nat.toDigits_of_lt_base hlt, List.singleton_append]
    · have hquot : n / b < b ^ k := Nat.div_lt_of_lt_mul (by rwa [← Nat.pow_succ'])
      rw [ih _ (Nat.div_pos hle (by omega)) hquot, Nat.toDigits_of_base_le hb hle, List.append_assoc,
        List.singleton_append]

/-- R79, R80: the loop with its case for zero gives the numeral. -/
theorem numeral_eq_toDigits {k n : Nat} (hk : n < b ^ k) :
    (if n = 0 then ['0'] else digitsOf b k n []) = Nat.toDigits b n := by
  split
  · next hzero => rw [hzero, Nat.toDigits_zero]
  · next hne => rw [digitsOf_eq_toDigits_append hb hten [] (Nat.pos_of_ne_zero hne) hk, List.append_nil]

end Numeral

/-- Only the numeral of zero begins with the digit zero. -/
theorem eq_zero_of_head?_toDigits {b n : Nat} (hb : 1 < b) (h : (Nat.toDigits b n).head? = some '0') : n = 0 := by
  induction n using Nat.strongRecOn with
  | ind n ih =>
    rcases Nat.lt_or_ge n b with hlt | hle
    · rw [Nat.toDigits_of_lt_base hlt] at h
      exact Nat.digitChar_eq_zero.mp (Option.some.inj h)
    · have hquot : 0 < n / b := Nat.div_pos hle (by omega)
      rw [Nat.toDigits_of_base_le hb hle, List.head?_append_of_ne_nil _ Nat.toDigits_ne_nil] at h
      exact absurd (ih _ (Nat.div_lt_self (by omega) hb) h) hquot.ne'

/-! ### DISPLAY -/

/-- R79: 39 decimal digits are room enough for every value. -/
theorem u128_nat_lt_ten_pow (v : U128) : v.nat < 10 ^ 39 :=
  (u128_nat_lt v).trans (by decide)

theorem displayChars_eq_toDigits (v : U128) : displayChars v = Nat.toDigits 10 v.nat := by
  unfold displayChars
  exact numeral_eq_toDigits (by decide) (by decide) (u128_nat_lt_ten_pow v)

/-- Settles O54, from what the library says of a numeral. -/
theorem displayIsTheDecimalNumeral : Obligations.DisplayIsTheDecimalNumeral := by
  intro v
  rw [display, displayChars_eq_toDigits]
  refine ⟨rfl, Nat.toString_eq_ofList_toDigits.symm, Nat.length_toDigits_pos,
    (Nat.length_toDigits_le_iff (by decide) (by decide)).mpr (u128_nat_lt_ten_pow v),
    fun _ => Nat.isDigit_of_mem_toDigits (by decide) (by decide), fun hhead => ?_⟩
  rw [eq_zero_of_head?_toDigits (by decide) hhead, Nat.toDigits_zero]

/-! ### DEBUG -/

theorem wordBinary_false (w : Word) : wordBinary false w = Nat.toDigits 2 w.toNat := by
  rw [wordBinary, if_neg Bool.false_ne_true]
  exact numeral_eq_toDigits (by decide) (by decide) w.isLt

theorem length_wordBinary_true (w : Word) : (wordBinary true w).length = 64 := by
  simp [wordBinary]

theorem getElem?_wordBinary_true (w : Word) {i : Nat} (h : i < 64) :
    (wordBinary true w)[i]? = some (if w.getLsbD (63 - i) then '1' else '0') := by
  simp [wordBinary, h]

/-- R80: a format's labels tell the words apart. -/
theorem debugFormat_labels (f : DebugFormat) : f.highLabel ≠ [] ∧ f.lowLabel ≠ [] ∧ f.highLabel ≠ f.lowLabel := by
  simpa [debugLabelsAllowed, and_assoc] using f.labelled

/-- R80: each word stands in the text behind its label, whichever the format puts first. -/
theorem labelledWords_in_debugChars (f : DebugFormat) (v : U128) :
    (f.highLabel ++ f.afterLabel ++ wordBinary f.padded v.high) <:+: debugChars f v ∧
      (f.lowLabel ++ f.afterLabel ++ wordBinary f.padded v.low) <:+: debugChars f v := by
  unfold debugChars
  generalize f.highLabel ++ f.afterLabel ++ wordBinary f.padded v.high = high
  generalize f.lowLabel ++ f.afterLabel ++ wordBinary f.padded v.low = low
  cases f.highFirst
  · exact ⟨⟨f.opening ++ low ++ f.between, f.closing, by simp⟩, ⟨f.opening, f.between ++ high ++ f.closing, by simp⟩⟩
  · exact ⟨⟨f.opening, f.between ++ low ++ f.closing, by simp⟩, ⟨f.opening ++ high ++ f.between, f.closing, by simp⟩⟩

/-- Settles O55, from what a format's labels are, where the labelled words stand and what their digits are. -/
theorem debugShowsBothWordsInBinary : Obligations.DebugShowsBothWordsInBinary := by
  refine ⟨fun v => String.toList_ofList, fun f v => ?_⟩
  obtain ⟨hhigh, hlow, hne⟩ := debugFormat_labels f
  obtain ⟨hhighText, hlowText⟩ := labelledWords_in_debugChars f v
  exact ⟨hhigh, hlow, hne, hhighText, hlowText,
    fun w => ⟨wordBinary_false w, length_wordBinary_true w, fun _ => getElem?_wordBinary_true w⟩⟩

end Sys2Proof.Machine

/-! ## Faults: which requests take one, and what it leaves until reset -/

namespace Sys2Proof.Machine

open Sys2Proof.Safety

/-! ### Which requests fault -/

/-- ADD and SUB: an outcome that one condition decides is a fault exactly when the condition holds. -/
theorem ite_fault_eq_fault_iff {p : Prop} [Decidable p] {k k' : Cause} {op op' : Op} {v : U128} {c : Bool} :
    (if p then Response.fault k' op' else .ok v c) = .fault k op ↔ k = k' ∧ op = op' ∧ p := by
  by_cases h : p
  · simp [h, @eq_comm _ k, @eq_comm _ op]
  · simp [h]

theorem exactOutcome_add_eq_fault_iff {a b : U128} {k : Cause} {op : Op} :
    exactOutcome (.add a b) = .fault k op ↔ k = .arithmeticOverflow ∧ op = .add ∧ 2 ^ 128 ≤ a.nat + b.nat :=
  ite_fault_eq_fault_iff

theorem exactOutcome_sub_eq_fault_iff {a b : U128} {k : Cause} {op : Op} :
    exactOutcome (.sub a b) = .fault k op ↔ k = .arithmeticOverflow ∧ op = .sub ∧ a.nat < b.nat :=
  ite_fault_eq_fault_iff

theorem exactOutcome_mul_eq_fault_iff {a b : U128} {k : Cause} {op : Op} :
    exactOutcome (.mul a b) = .fault k op ↔ k = .reservedOperation ∧ op = .mul := by
  simp [exactOutcome, @eq_comm _ k, @eq_comm _ op]

theorem exactOutcome_rsv3_eq_fault_iff {a b : U128} {k : Cause} {op : Op} :
    exactOutcome (.rsv3 a b) = .fault k op ↔ k = .reservedOperation ∧ op = .rsv3 := by
  simp [exactOutcome, @eq_comm _ k, @eq_comm _ op]

/-- Settles O34: a request faults with its exact outcome alone, which is a fault on one row of R90's table per
operation. -/
theorem faultsHaveExactlyTheseCauses : Obligations.FaultsHaveExactlyTheseCauses := by
  intro i s k op hrun
  rw [endsFault_iff_exactOutcome hrun]
  cases i with
  | add a b => simp [exactOutcome_add_eq_fault_iff]
  | sub a b => simp [exactOutcome_sub_eq_fault_iff]
  | mul a b => simp [exactOutcome_mul_eq_fault_iff]
  | rsv3 a b => simp [exactOutcome_rsv3_eq_fault_iff]

/-! ### What a fault leaves -/

/-- R95: a request whose exact outcome is a fault takes it, and the fault names the request's own operation. -/
theorem exec_of_exactOutcome_fault {i : Instr} {s : State} {k : Cause} {op : Op} (hrun : s.fsr.cause = 0#2)
    (h : exactOutcome i = .fault k op) : op = i.op ∧ ∃ cLo cHi, exec i s = .next (s.takeFault k op cLo cHi) := by
  rcases acceptedExactly i with ⟨r, -, hok, -⟩ | ⟨k', cLo, cHi, hfault, he⟩
  · simp [hok] at h
  · obtain ⟨rfl, rfl⟩ := Response.fault.inj (hfault.symm.trans h)
    exact ⟨rfl, cLo, cHi, he s hrun⟩

/-- R96, R118: what the host reads while `FSR` holds a fault. -/
theorem observe_of_fault {s : State} {k : Cause} {op : Op} (h : s.fsr = { cause := k.code, fop := op.code }) :
    s.observe.reqReady = false ∧ s.observe.fault = true ∧
      s.observe.faultCause = k.code ∧ s.observe.faultOp = op.code := by
  have hhalted : ({ cause := k.code, fop := op.code } : Fsr).running = false := running_of_ne (code_ne_zero k)
  simp [State.observe, quietPorts, h, hhalted]

/-- R17: a recorded fault is what the host reads after any number of cycles without reset. -/
theorem run_observe_of_fault {s : State} {k : Cause} {op : Op} (h : s.fsr = { cause := k.code, fop := op.code })
    (hin : ∀ p ∈ s.inputs, p.rst = false) (n : Nat) :
    ∃ u, Sys2Proof.core.run n s = .next u ∧ u.observe.reqReady = false ∧ u.observe.fault = true ∧
      u.observe.faultCause = k.code ∧ u.observe.faultOp = op.code := by
  obtain ⟨u, hrun, hfsr, -⟩ := haltLastsUntilReset n s (h ▸ code_ne_zero k) hin
  exact ⟨u, hrun, observe_of_fault (hfsr.trans h)⟩

/-- Settles O33: the request takes its fault, what that writes is read off `FSR`, and the halt keeps it (O36). -/
theorem faultEntry : Obligations.FaultEntry := by
  intro i s k op hrun hout
  obtain ⟨hop, cLo, cHi, he⟩ := exec_of_exactOutcome_fault hrun hout
  obtain ⟨hready, hfault, hcause, hfop⟩ := observe_of_fault (takeFault_fsr k op cLo cHi s)
  exact ⟨_, he, hop, rfl, rfl, rfl, rfl, rfl, hready, hfault, hcause, hfop, run_observe_of_fault rfl⟩

end Sys2Proof.Machine

/-! ## Runs from reset, and the cycles that accept no request -/

namespace Sys2Proof.Machine

open Sys2Proof.Safety

/-- Settles O47, by induction on the number of cycles with O46 at each. -/
theorem everyRunGoesOnAndKeepsTheInvariant : Obligations.EveryRunGoesOnAndKeepsTheInvariant := by
  intro k
  induction k with
  | zero => exact fun s hs => ⟨s, rfl, hs⟩
  | succ k ih =>
    intro s hs
    obtain ⟨s', hstep, hs'⟩ := stepKeepsTheMachineInvariant s hs
    obtain ⟨t, hrun, ht⟩ := ih s' hs'
    exact ⟨t, (core_run_succ hstep).trans hrun, ht⟩

/-! ### The reference run up to its first fault -/

theorem isOk_eq_false_iff {r : Response} : isOk r = false ↔ ∃ k op, r = .fault k op := by
  cases r <;> simp [isOk]

theorem isOk_eq_true_iff {r : Response} : isOk r = true ↔ ∃ v c, r = .ok v c := by
  cases r <;> simp [isOk]

/-- R17: a halted unit accepts none of the requests that are left. -/
theorem referenceRun_of_halted {f : Fsr} (h : f.cause ≠ 0#2) (reqs : List Instr) : referenceRun f reqs = (f, []) := by
  induction reqs with
  | nil => rfl
  | cons i rest ih => simp [referenceRun, referenceStep_of_halted h, fsrAfter, recorded, ih]

/-- R12, R117: requests that end `Ok` leave `FSR`, so they only put their outcomes before those of the rest. -/
theorem referenceRun_append_of_isOk {f : Fsr} (h : f.cause = 0#2) {before : List Instr}
    (hok : ∀ j ∈ before, isOk (exactOutcome j) = true) (rest : List Instr) :
    referenceRun f (before ++ rest) =
      ((referenceRun f rest).1, before.map exactOutcome ++ (referenceRun f rest).2) := by
  induction before with
  | nil => rfl
  | cons j before ih =>
    obtain ⟨hj, hbefore⟩ := List.forall_mem_cons.mp hok
    obtain ⟨v, c, ho⟩ := isOk_eq_true_iff.mp hj
    simp [referenceRun, referenceStep_of_ok h ho, fsrAfter, recorded, ih hbefore, ho]

/-- R117: while every request ends `Ok`, the run's outcomes are all the exact ones. -/
theorem referenceRun_of_isOk {f : Fsr} (h : f.cause = 0#2) {reqs : List Instr}
    (hok : ∀ j ∈ reqs, isOk (exactOutcome j) = true) : referenceRun f reqs = (f, reqs.map exactOutcome) := by
  simpa [referenceRun] using referenceRun_append_of_isOk h hok []

/-- R95, R117: the first fault is the last outcome of its run, and `FSR` names it at the end. -/
theorem referenceRun_of_first_fault {f : Fsr} (h : f.cause = 0#2) {before : List Instr}
    (hok : ∀ j ∈ before, isOk (exactOutcome j) = true) {i : Instr} {k : Cause} {op : Op}
    (hi : exactOutcome i = .fault k op) (after : List Instr) :
    referenceRun f (before ++ i :: after) =
      ({ cause := k.code, fop := op.code }, (before ++ [i]).map exactOutcome) := by
  rw [referenceRun_append_of_isOk h hok]
  simp [referenceRun, referenceStep_of_fault h hi, fsrAfter, recorded, referenceRun_of_halted, code_ne_zero, hi]

/-- A list of requests has no fault among its exact outcomes, or a first one. -/
theorem forall_isOk_or_first_fault (reqs : List Instr) :
    (∀ j ∈ reqs, isOk (exactOutcome j) = true) ∨
      ∃ before i after, reqs = before ++ i :: after ∧ isOk (exactOutcome i) = false ∧
        ∀ j ∈ before, isOk (exactOutcome j) = true := by
  cases h : reqs.find? (fun i => !isOk (exactOutcome i)) with
  | none => exact .inl (by simpa using h)
  | some i =>
    obtain ⟨hi, before, after, hreqs, hbefore⟩ := List.find?_eq_some_iff_append.mp h
    exact .inr ⟨before, i, after, hreqs, by simpa using hi, by simpa using hbefore⟩

/-- Settles O49: the run is the reference run (O48), which ends running when no exact outcome is a fault and halted at
the first one otherwise. -/
theorem runIsFinalExactlyWhenEveryOutcomeIsOk : Obligations.RunIsFinalExactlyWhenEveryOutcomeIsOk := by
  intro reqs
  obtain ⟨t, hrun, hfsr, hresp, -⟩ := runMeetsTheReferenceRun reqs State.reset
  refine ⟨t, hrun, ?_⟩
  have hreset : State.reset.fsr.cause = 0#2 := rfl
  rcases forall_isOk_or_first_fault reqs with hok | ⟨before, i, after, hreqs, hi, hbefore⟩
  · rw [referenceRun_of_isOk hreset hok] at hfsr hresp
    have hfinal : Final t := congrArg Fsr.cause hfsr
    have hrec : t.responses = reqs.map exactOutcome := hresp
    exact ⟨iff_of_true hfinal ⟨hrec, by simpa [hrec] using hok⟩, fun h => absurd hfinal h⟩
  · obtain ⟨k, op, hfault⟩ := isOk_eq_false_iff.mp hi
    rw [hreqs, referenceRun_of_first_fault hreset hbefore hfault] at hfsr hresp
    have hcause : t.fsr.cause = k.code := congrArg Fsr.cause hfsr
    have hhalted : ¬Final t := fun h => code_ne_zero k (hcause.symm.trans h)
    have hrec : t.responses = (before ++ [i]).map exactOutcome := hresp
    have hmem : exactOutcome i ∈ t.responses := by simp [hrec]
    refine ⟨iff_of_false hhalted fun ⟨_, hall⟩ => ?_, fun _ => ⟨before, i, after, hreqs, hi, hbefore, hrec⟩⟩
    exact absurd (hall _ hmem) (by simp [hi])

/-! ### Reset and idle cycles -/

/-- R110, R118: a unit whose `FSR` is clear is ready. -/
theorem observe_reqReady_of_running {s : State} (h : s.fsr.cause = 0#2) : s.observe.reqReady = true := by
  simp [State.observe, quietPorts, h]

/-- R111: `rst = 1` holds `req_ready` at 0, whatever `FSR` is. -/
theorem quietPorts_true_reqReady (f : Fsr) : (quietPorts true f).reqReady = false :=
  Bool.and_false _

/-- Settles O37: the step is the reset cycle, whatever else the host drives. -/
theorem resetCycleClearsTheUnit : Obligations.ResetCycleClearsTheUnit := by
  intro s p rest hin hrst
  have hstep : step s = .next s.resetCycle := step_of_reset (by rw [pinsNow_of_cons hin, hrst])
  exact ⟨s.resetCycle, hstep, rfl, quietPorts_true_reqReady s.fsr, rfl, rfl, rfl, rfl, rfl, rfl,
    observe_reqReady_of_running rfl⟩

/-- R118: without reset and without a request the cycle is quiet. -/
theorem step_of_idle {s : State} (hrst : s.pinsNow.rst = false) (hvalid : s.pinsNow.reqValid = false) :
    step s = .next s.quietCycle := by
  simp [step, hrst, hvalid]

/-- Settles O38: the quiet cycle keeps `FSR`, which is all that the host observes. -/
theorem idleCycleChangesNothing : Obligations.IdleCycleChangesNothing := fun s hrst hvalid =>
  ⟨s.quietCycle, step_of_idle hrst hvalid, rfl, rfl, quietPorts_eq_portsSilent false s.fsr, rfl⟩

/-- Settles O39: the fields of `State.reset` and what the host reads there, each by evaluation. -/
theorem resetValues : Obligations.ResetValues := by
  unfold Obligations.ResetValues
  decide

end Sys2Proof.Machine
